-- ==== Sys2Proof/Word.lean ====
section
/-! DEFINITION. The byte, the block's unit of data (00_scope.md, section 6: sizes are given in bytes). -/

namespace Sys2Proof

/-- One byte, as the bus carries it. -/
abbrev Byte := BitVec 8

end Sys2Proof
end

