-- ==== Sys2Proof/Syntax.lean ====
section
/-! DEFINITION. The commands of the block: one constructor per row of spec/opcode_table.json, with what the outside world supplies
with each event. -/

namespace Sys2Proof

/-- A command: one whole, indivisible event of the part (95_what_each_step_holds.md). -/
inductive Instr where
  /-- POWER_ON (R175). The levels of MODE and CLKBYP as the load samples them (R174), and what a cell cut in its burn reads as (R173). -/
  | powerOn (mode clkbyp cutReads : Bool)
  /-- RESET_N_ASSERT (R175). -/
  | resetNAssert
  /-- RESET_N_RELEASE (R175): a load begins, as for POWER_ON. -/
  | resetNRelease (mode clkbyp cutReads : Bool)
  /-- LOAD_COMPLETE (R175). -/
  | loadComplete
  /-- BOOTSTRAP_READ_COMPLETE (R177), with the bytes of the provisioning image as the flash returned them. -/
  | bootstrapReadComplete (image : List Byte)
  /-- PROVISION_CELL_BURN_COMPLETE (R177). -/
  | provisionCellBurnComplete
  /-- UPSTREAM_SELECT_ASSERT (R96). -/
  | upstreamSelectAssert
  /-- INSTRUCTION_BYTE_COMPLETE (R97), with the instruction byte. -/
  | instructionByteComplete (b : Byte)
  /-- ADDRESS_COMPLETE (R98), with the address field received, most significant byte first; of a 3-byte field its low 24 bits. -/
  | addressComplete (a : BitVec 32)
  /-- UPSTREAM_DATA_BYTE (R99), with the byte on the data lines as the flash or the controller drives it. -/
  | upstreamDataByte (b : Byte)
  /-- UPSTREAM_SELECT_RISE (R100), with the clocks into the byte then in progress, 0 at a byte boundary. -/
  | upstreamSelectRise (clocks : Fin 8)
  /-- REPORT (R165). -/
  | report
  /-- PEEK (R165). -/
  | peek
  /-- DETAIL (R166), with the region index byte. -/
  | detail (index : Byte)
  /-- VERIFY (R56), with the region index byte. -/
  | verify (index : Byte)
  /-- RESTART (R168). -/
  | restart
  /-- RAISE_FLOOR (R144), with the kind byte. -/
  | raiseFloor (kind : Byte)
  /-- REVOKE (R147), with the key slot byte. -/
  | revoke (slot : Byte)
  /-- FETCH (R171). -/
  | fetch
  /-- UNKNOWN_REQUEST (R163), with a request code the table of R163 does not list. -/
  | unknownRequest (code : Byte)
  /-- BURST_BYTE_RECEIVED (R66), with the byte the flash returned. -/
  | burstByteReceived (b : Byte)
  /-- SIGNATURE_CHECK_COMPLETE (R76). -/
  | signatureCheckComplete
  /-- DEADLINE_EXPIRY (R53). -/
  | deadlineExpiry
  /-- HOLD_PULSE_EXPIRY (R157). -/
  | holdPulseExpiry
  /-- WAKE_COMPLETE (R130). -/
  | wakeComplete
  /-- WAKE_WAIT_END (R130). -/
  | wakeWaitEnd
  /-- STATUS_POLL_COMPLETE (R131), with byte 0 as the flash returned it. -/
  | statusPollComplete (status : Byte)
  /-- POLL_WAIT_END (R131). -/
  | pollWaitEnd
  /-- WRITE_DISABLE_COMPLETE (R128). -/
  | writeDisableComplete
  /-- SLEEP_COMPLETE (R128). -/
  | sleepComplete
  /-- FLOOR_CELL_COMPLETE (R146). -/
  | floorCellComplete
  /-- REVOKE_CELL_COMPLETE (R149). -/
  | revokeCellComplete
  /-- DUMMY_COUNT_COMPLETE (R99). -/
  | dummyCountComplete
deriving DecidableEq, Repr

end Sys2Proof
end

