-- ==== Sys2Proof/Config.lean ====
section
/-! DEFINITION. The free values: what the spec leaves open and a run must still have. None has a body, so that no proof can lean on
a value of it. -/

namespace Sys2Proof

/-- Which of several timers that end in the same microsecond is taken first (00_scope.md, section 6, Events: the outcome may depend
on which event is taken first; no rule orders them). Applied to a counter of State. Log 4. -/
opaque Config.raceOrder : Nat → Nat

/-- The result of a signature check whose 64 key bytes are not a point of P-256: R23 gives the check for a public point only. Applied
to the key, the digest and the signature. Log 10. -/
opaque Config.checkWithoutPoint : List Byte → BitVec 256 → List Byte → Bool

end Sys2Proof
end

