-- ==== Sys2Proof/Machine/State.lean ====
section
/-! DEFINITION. State: every piece of state the spec gives the part, as plain data, block by block (00_scope.md, section 3), and the
state right after power-on of a factory part. -/

namespace Sys2Proof.Machine

/-! ## Class table (R95) -/

/-- The fifteen classes of R95, in its order (class codes 0 to 14, R176). -/
inductive TxClass where
  | read | program | eraseSector | eraseBlock | eraseChip | writeEnable | writeDisable | statusRead | statusWrite
  | sleep | wake | resume | plain | service | barred
deriving DecidableEq, Repr

/-- A class table entry (R95). -/
structure ClassEntry where
  cls        : TxClass
  addrBytes  : Nat
  addrWidth  : Nat
  dummy      : Nat
  dataWidth  : Nat
deriving DecidableEq, Repr

/-- The entry of a byte the provisioning image does not list (R95). -/
def ClassEntry.unlisted : ClassEntry := ⟨.barred, 0, 1, 0, 1⟩

/-! ## Regions, pairs, windows (Chapter 1) -/

/-- A read gate (R1); `opened` is the spec's OPEN. -/
inductive Gate where
  | hold | observe | fill | opened
deriving DecidableEq, Repr

/-- A configured write policy (R1). -/
inductive Policy where
  | locked | free | slot
deriving DecidableEq, Repr

/-- A region's role (R1). -/
inductive Role where
  | required | optional | recovery
deriving DecidableEq, Repr

/-- A configured region record (R1). -/
structure Region where
  base     : Nat
  length   : Nat
  gate     : Gate
  policy   : Policy
  role     : Option Role
  kind     : Option (Fin 8)
  priority : Option (Fin 4)
  partner  : Option Nat
  home     : Option Bool
deriving DecidableEq, Repr

/-- The region state of a runtime record, in the order of R172's codes. -/
inductive RState where
  | unchecked | queued | header | hashing | signing | verified | rejected | stale
deriving DecidableEq, Repr

/-- Why an image failed (R2), in the order of R172's codes. -/
inductive Reason where
  | blank | format | kind | key | epoch | length | signature | deadline
deriving DecidableEq, Repr

/-- The four fields a passing manifest leaves, which become present together (R30). -/
structure Recorded where
  signedLength : Nat
  epoch        : Nat
  sequence     : Nat
  keySlot      : Fin 4
deriving DecidableEq, Repr

/-- A runtime record (R2). -/
structure Runtime where
  state    : RState
  reason   : Option Reason
  recorded : Option Recorded
  progress : Nat
  context  : Option (Fin 4)
  observed : Bool
  runTag   : BitVec 16
deriving DecidableEq, Repr

/-- One slot of a pair (R7). -/
inductive Slot where
  | home | alternate
deriving DecidableEq, Repr

/-- The selection of a pair (R7), in the order of R172's codes. -/
inductive Selection where
  | none | home | alternate
deriving DecidableEq, Repr

/-- The pair state (R7), in the order of R172's codes. -/
inductive PairState where
  | selecting | tryingFirst | tryingSecond | selected | failed
deriving DecidableEq, Repr

/-- A pair record (R7). -/
structure Pair where
  home      : Nat
  alternate : Nat
  selection : Selection
  state     : PairState
  order     : List Slot
  escalated : Bool
deriving DecidableEq, Repr

/-- Which mechanism installed a translation entry (R8). -/
inductive WindowCause where
  | pair | recovery
deriving DecidableEq, Repr

/-- A translation entry (R8). -/
structure Window where
  from_  : Nat
  to_    : Nat
  length : Nat
  cause  : WindowCause
  owner  : Option Nat
deriving DecidableEq, Repr

/-! ## Digest contexts and the signature unit (Chapter 4) -/

/-- The owner of a digest context, and an entry of the verify queue: a region or a pair (R37, R59). -/
inductive Owner where
  | region (i : Nat)
  | pair (j : Nat)
deriving DecidableEq, Repr

/-- The phase of a digest context (R59). -/
inductive CtxPhase where
  | header | payload
deriving DecidableEq, Repr

/-- The eight working words of SHA-256. -/
structure Words8 where
  a : BitVec 32
  b : BitVec 32
  c : BitVec 32
  d : BitVec 32
  e : BitVec 32
  f : BitVec 32
  g : BitVec 32
  h : BitVec 32
deriving DecidableEq, Repr

/-- A running SHA-256 state (R59, digest state): chaining words, the bytes of the block being filled, the count of bytes absorbed. -/
structure Digest where
  words : Words8
  block : List Byte
  count : Nat
deriving DecidableEq, Repr

/-- One manifest of a header store (R59): the region it belongs to and the bytes gathered so far. -/
structure Manifest where
  region : Nat
  bytes  : List Byte
deriving DecidableEq, Repr

/-- A held digest context (R59). -/
structure Ctx where
  owner    : Owner
  phase    : CtxPhase
  digest   : Option Digest
  store    : List Manifest
  nextRead : Nat
  wanted   : Nat
  runTag   : BitVec 16
deriving DecidableEq, Repr

/-- An entry of the signature list (R73). -/
structure SigEntry where
  region    : Nat
  digest    : BitVec 256
  signature : List Byte
  keySlot   : Fin 4
  runTag    : BitVec 16
deriving DecidableEq, Repr

/-- The signature unit (R74). While checking it holds the entry, the withdrawn flag, the key bytes read at the start of the check and
the check time left, in µs. -/
inductive SigUnit where
  | idle
  | checking (entry : SigEntry) (withdrawn : Bool) (key : List Byte) (remaining : Nat)
deriving DecidableEq, Repr

/-! ## Key store and configuration store (Chapters 9 and 12) -/

/-- The state of a key slot (R141), in the order of R169's codes. -/
inductive KeyState where
  | empty | active | revoked
deriving DecidableEq, Repr

/-- A key slot record (R141); bit k of `allowed` is kind k. -/
structure KeySlot where
  state   : KeyState
  allowed : BitVec 8
  key     : List Byte
deriving DecidableEq, Repr

/-- A burn job (R143). -/
inductive BurnJob where
  | floor (kind : Fin 8) (target : Nat)
  | revoke (slot : Fin 4)
deriving DecidableEq, Repr

/-- The burn state while BURNING (R143): the job and the cell time left, in µs. -/
structure Burn where
  job       : BurnJob
  remaining : Nat
deriving DecidableEq, Repr

/-- The key store (R141 to R143). -/
structure KeyStore where
  slots  : Vector KeySlot 4
  floors : Vector Nat 8
  burn   : Option Burn
deriving DecidableEq, Repr

/-- A cell of the configuration store (R173). -/
inductive StoreCell where
  | config (byte : Nat) (bit : Fin 8)
  | crc (bit : Fin 32)
  | active (slot : Fin 4)
  | revoked (slot : Fin 4)
  | floor (kind : Fin 8) (position : Fin 63)
  | sealMark
deriving DecidableEq, Repr

/-- The one-time configuration store (R173): a set bit is a burned cell. `cut` is the cell a reset cut in its burn, until the next
load resolves it (R151). -/
structure Store where
  config  : List Byte
  crc     : BitVec 32
  active  : Vector Bool 4
  revoked : Vector Bool 4
  floors  : Vector (BitVec 63) 8
  sealed  : Bool
  cut     : Option StoreCell
deriving DecidableEq, Repr

/-- The sampled straps (R174): `provision` for MODE high, `bypass` for CLKBYP high. -/
structure Straps where
  provision : Bool
  bypass    : Bool
deriving DecidableEq, Repr

/-- A load in progress (R175), with what the cut cell, if there is one, reads as (R173). -/
inductive Load where
  | none
  | running (cutReads : Bool)
deriving DecidableEq, Repr

/-- The provisioning procedure (R177): reading the image, or burning towards the wanted store, with the cell being burned and the
time left for it in µs. -/
inductive Provisioning where
  | idle
  | reading
  | burning (want : Store) (cell : StoreCell) (remaining : Nat)
deriving DecidableEq, Repr

/-- The configured values the blocks receive at load (R175, R176), apart from regions, keys and clock. -/
structure Cfg where
  geometry     : Nat
  table        : List ClassEntry
  verifierRead : Byte
  statusRead   : Byte
  writeDisable : Byte
  wake         : Byte
  sleep        : Byte
  busyBit      : Fin 8
  latchBit     : Fin 8
  serviceByte  : Byte
  tag          : Byte
  bootWindow   : Option Nat
  unmapped     : Policy
  statusAllow  : Bool
  deadline     : Nat
  holdPulse    : Nat
  wakeTime     : Nat
  pollInterval : Nat
  burstExp     : Nat
  alertEnable  : Bool
deriving DecidableEq, Repr

/-- The clock synthesizer (R138, R139): configured values, bypass flag, f_core as the exact rational `coreNum / coreDen` MHz, and the
check time in µs (R75). -/
structure Synth where
  fRef      : Nat
  n         : Nat
  m         : Nat
  p         : Nat
  bypass    : Bool
  coreNum   : Nat
  coreDen   : Nat
  checkTime : Nat
deriving DecidableEq, Repr

/-! ## Upstream port (Chapter 6) -/

/-- The fill causes (R85). -/
inductive FillCause where
  | halted | range | crossing | tail | gate
deriving DecidableEq, Repr

/-- The cause set of a READ transaction (R86); HALTED is not tallied (R80). -/
structure Causes where
  range    : Bool
  crossing : Bool
  tail     : Bool
  gate     : Bool
deriving DecidableEq, Repr

/-- The phase of a transaction (R96). -/
inductive TxPhase where
  | instruction | address | dummy | data
deriving DecidableEq, Repr

/-- The flash side of a transaction (R96); `absent` is the spec's NONE. -/
inductive FlashSide where
  | notStarted | running | ended | absent
deriving DecidableEq, Repr

/-- How the part treats a transaction (R96). -/
inductive Handling where
  | relay | truncated | serviceWait | consumed | noFlash
deriving DecidableEq, Repr

/-- The transaction record (R96). `range` is the affected range as (first byte, length). -/
structure Tx where
  phase     : TxPhase
  clocks    : Fin 8
  entry     : Option ClassEntry
  address   : Option (BitVec 32)
  received  : Nat
  captured  : Option (List Window)
  range     : Option (Nat × Nat)
  flashSide : FlashSide
  handling  : Handling
  k         : Nat
  causes    : Causes
  service   : List Byte
deriving DecidableEq, Repr

/-- The mode of the upstream port (R93). -/
inductive PortMode where
  | detached | passThrough | relaying
deriving DecidableEq, Repr

/-- Where a byte the controller sampled came from: the flash, fill (R85), the part's response (R171), or lines held high (R105). -/
inductive Origin where
  | flash
  | fill (cause : FillCause)
  | response
  | high
deriving DecidableEq, Repr

/-- A byte the controller sampled on the upstream data lines. -/
structure UpByte where
  byte   : Byte
  origin : Origin
deriving DecidableEq, Repr

/-- The upstream port: UP_CS_N, the mode, the transaction record, and the last data byte the controller sampled. -/
structure Upstream where
  select : Bool
  mode   : PortMode
  tx     : Option Tx
  out    : Option UpByte
deriving DecidableEq, Repr

/-! ## Flash port (Chapter 8) -/

/-- The flash's write-enable latch as last learned (R126). -/
inductive Latch where
  | set | clear | unknown
deriving DecidableEq, Repr

/-- Whether the flash is busy (R126). -/
inductive Busy where
  | idle | busy | unknown
deriving DecidableEq, Repr

/-- The flash's power condition (R126). -/
inductive Power where
  | awake | asleep | unknown
deriving DecidableEq, Repr

/-- The flash shadow (R126). -/
structure Shadow where
  writeEnable  : Latch
  busy         : Busy
  power        : Power
  sleepPending : Bool
  wdPending    : Bool
deriving DecidableEq, Repr

/-- An instruction of the part's own (R134), or the bootstrap read of provisioning (R177). A wake keeps whether power was ASLEEP when
it was issued (R130); a burst its context and the bytes still to come (R136). -/
inductive OwnOp where
  | writeDisable
  | wake (fromAsleep : Bool)
  | poll
  | burst (ctx : Fin 4) (left : Nat)
  | sleep
  | bootstrap
deriving DecidableEq, Repr

/-- Who holds the flash (R134). -/
inductive Holder where
  | free
  | relay
  | own (op : OwnOp)
deriving DecidableEq, Repr

/-- The flash port: shadow, holder, round-robin pointer (R64), wake and poll wait in µs (R130, R131), FL_CS_N, and the whole bytes sent
in the present or last flash-side transaction with the class table entry that shapes it. In PASS-THROUGH the bytes are those that stand on
the connected lines, and no entry shapes them (log 19). -/
structure FlashPort where
  shadow     : Shadow
  holder     : Holder
  lastServed : Fin 4
  wakeWait   : Option Nat
  pollWait   : Option Nat
  select     : Bool
  sent       : List Byte
  shape      : Option ClassEntry
deriving DecidableEq, Repr

/-! ## Write filter, permit controller, service handler (Chapters 7, 10, 11) -/

/-- Why a transaction was refused (R124). -/
inductive RefusalCause where
  | policy | range | barred
deriving DecidableEq, Repr

/-- The last refusal of the violation record (R124). -/
structure LastRefusal where
  cls     : TxClass
  address : Option Nat
  cause   : RefusalCause
deriving DecidableEq, Repr

/-- The violation record (R124). -/
structure Violation where
  count : Nat
  last  : Option LastRefusal
deriving DecidableEq, Repr

/-- The permit state (R152). -/
inductive PermitState where
  | loading | unprovisioned | provisioning | provisioned | verifying | permitted | denied | fault
deriving DecidableEq, Repr

/-- The hold pulse timer (R157). `startup` is the start-up pulse, whose length the load has still to read; `running` holds µs left. -/
inductive Pulse where
  | stopped
  | startup
  | running (remaining : Nat)
deriving DecidableEq, Repr

/-- The cause of a run start (R35), in the order of R172's codes; of a reset, POWER or PIN. -/
inductive StartCause where
  | power | pin | restart
deriving DecidableEq, Repr

/-- The fill tally (R87). -/
structure Tally where
  range    : Nat
  crossing : Nat
  tail     : Nat
  gate     : Nat
deriving DecidableEq, Repr

/-- The run report record (R160). -/
structure Report where
  runNumber : BitVec 16
  cause     : StartCause
  duration  : Option Nat
  tally     : Tally
deriving DecidableEq, Repr

/-- The set of alert causes (R161). -/
structure Alerts where
  resultUnread : Bool
  violation    : Bool
  denied       : Bool
  fault        : Bool
deriving DecidableEq, Repr

/-- The response buffer's response (R170). -/
structure Response where
  body    : List Byte
  fetched : Bool
deriving DecidableEq, Repr

/-- The sideband outputs and FL_WP_N, each as asserted or not (R155, R156, R162, R180). -/
structure Pins where
  ctrlHold    : Bool
  printPermit : Bool
  alert       : Bool
  protect     : Bool
deriving DecidableEq, Repr

/-- The state of the part, and the queue of the commands that wait. INVENTORY.md names the rule of each field. -/
structure State where
  pending     : List Instr
  resetN      : Bool
  resetCause  : StartCause
  straps      : Straps
  load        : Load
  prov        : Provisioning
  sinceReset  : Nat
  runElapsed  : Nat
  store       : Store
  cfg         : Cfg
  synth       : Synth
  keys        : KeyStore
  regions     : List Region
  pairs       : List Pair
  runtime     : List (Option Runtime)
  runNumber   : BitVec 16
  queue       : List Owner
  deadline    : Option Nat
  trans       : List Window
  contexts    : Vector (Option Ctx) 4
  sigList     : List SigEntry
  sigUnit     : SigUnit
  up          : Upstream
  fp          : FlashPort
  violation   : Violation
  permit      : PermitState
  pulse       : Pulse
  recoverySwap : Bool
  report      : Option Report
  alerts      : Alerts
  pins        : Pins
  response    : Option Response
deriving DecidableEq, Repr

/-- Why a step stops with a fault. No command of this block raises one: an event that cannot happen in the present state leaves the
state unchanged (log 1). -/
inductive Fault where
  /-- Raised by nothing; safe (a stop). It keeps the type inhabited. -/
  | neverRaised
deriving DecidableEq, Repr

/-- Why a command has no meaning in the model. -/
inductive Refusal where
  /-- Raised by an arm of `exec` whose command is not modelled yet; safe. No arm is such an arm now. -/
  | notModelled (mnemonic : String)
deriving DecidableEq, Repr

/-- The outcome of a command or a step. -/
abbrev Result := Host.Outcome State Fault Refusal

/-! ## Reset values -/

/-- A store in which no cell is burned (R173). -/
def Store.blank : Store :=
  { config := List.replicate 987 0, crc := 0, active := Vector.replicate 4 false, revoked := Vector.replicate 4 false,
    floors := Vector.replicate 8 0, sealed := false, cut := none }

/-- The configured values of a part whose load has found no valid store (R175: empty after-reset values). DESIGN CHOICE, log 6: the
values that no rule states are zeros. Unsafe. -/
def Cfg.empty : Cfg :=
  { geometry := 0, table := List.replicate 256 ClassEntry.unlisted, verifierRead := 0, statusRead := 0, writeDisable := 0,
    wake := 0, sleep := 0, busyBit := 0, latchBit := 0, serviceByte := 0, tag := 0, bootWindow := none, unmapped := .locked,
    statusAllow := false, deadline := 0, holdPulse := 0, wakeTime := 0, pollInterval := 0, burstExp := 0, alertEnable := false }

/-- The synthesizer before a valid load: bypass, times counted as if f_ref were 40 MHz (R138, R139). N, M and P, the core clock of 40 MHz
and the check time of 30 000 µs that it gives are a DESIGN CHOICE, log 6: no rule states them before a load of a valid store. -/
def Synth.empty : Synth :=
  { fRef := 40, n := 0, m := 0, p := 0, bypass := true, coreNum := 40, coreDen := 1, checkTime := 30000 }

/-- An EMPTY key slot with no allowed kinds (R141, blank store). -/
def KeySlot.none : KeySlot := ⟨.empty, 0, List.replicate 64 0⟩

/-- The key store before a valid load: slots EMPTY, floors 0, burn IDLE (R141 to R143). -/
def KeyStore.empty : KeyStore := ⟨Vector.replicate 4 KeySlot.none, Vector.replicate 8 0, Option.none⟩

/-- The shadow after power-on (R126). -/
def Shadow.afterPowerOn : Shadow := ⟨.unknown, .unknown, .awake, false, false⟩

/-- The shadow after a pin reset (R126). -/
def Shadow.afterPinReset : Shadow := ⟨.unknown, .unknown, .unknown, false, false⟩

/-- The flash port after a reset (R137), its shadow given. -/
def FlashPort.afterReset (sh : Shadow) : FlashPort :=
  { shadow := sh, holder := .free, lastServed := 3, wakeWait := none, pollWait := none, select := false, sent := [], shape := none }

/-- The state after a reset of the given cause: every block at its after-reset values, permit state LOADING, CTRL_HOLD_N asserted with
its start-up pulse (R175, R157), no load begun. What a reset keeps is given: the queue, the store, the run number, the RESET_N and
UP_CS_N levels and the straps last sampled. -/
def State.afterReset (pending : List Instr) (store : Store) (run : BitVec 16) (resetN upSelect : Bool) (straps : Straps)
    (cause : StartCause) : State :=
  { pending, resetN, resetCause := cause, straps, load := .none, prov := .idle, sinceReset := 0, runElapsed := 0, store
    cfg := Cfg.empty, synth := Synth.empty, keys := KeyStore.empty, regions := [], pairs := [], runtime := []
    runNumber := run, queue := [], deadline := none, trans := []
    contexts := Vector.replicate 4 none, sigList := [], sigUnit := .idle
    up := { select := upSelect, mode := .detached, tx := none, out := none }
    fp := FlashPort.afterReset (if cause = .power then Shadow.afterPowerOn else Shadow.afterPinReset)
    violation := ⟨0, none⟩, permit := .loading, pulse := .startup, recoverySwap := false, report := none
    alerts := ⟨false, false, false, false⟩
    pins := { ctrlHold := true, printPermit := false, alert := false, protect := true }
    response := none }

/-- The machine right after reset: a factory part (blank store, R173) just powered on (R175), its load begun with both straps low.
DESIGN CHOICE, log 5: the straps, the pins outside the part, what a cut cell would read as. Unsafe. -/
def State.reset : State :=
  { State.afterReset [] Store.blank 0 false false ⟨false, false⟩ .power with load := .running false }

end Sys2Proof.Machine
end

