-- ==== Sys2Proof/Machine/Bytes.lean ====
section
/-! DEFINITION. Byte strings and numbers: little-endian and big-endian readings and writings (00_scope.md, section 6, Byte order). -/

namespace Sys2Proof.Machine

/-- The number a byte string spells, least significant byte first. -/
def leNat : List Byte → Nat
  | [] => 0
  | b :: bs => b.toNat + 256 * leNat bs

/-- The number a byte string spells, most significant byte first. -/
def beNat (bs : List Byte) : Nat := leNat bs.reverse

/-- The `n` bytes of `v`, least significant byte first. -/
def leBytes : Nat → Nat → List Byte
  | 0, _ => []
  | n + 1, v => BitVec.ofNat 8 v :: leBytes n (v / 256)

/-- The `n` bytes of `v`, most significant byte first. -/
def beBytes (n v : Nat) : List Byte := (leBytes n v).reverse

/-- Byte `i` of a byte string; past its end the FFh of undriven lines. -/
def byteAt (bs : List Byte) (i : Nat) : Byte := bs.getD i 0xFF

/-- The bytes `[a, +n)` of a byte string. -/
def slice (bs : List Byte) (a n : Nat) : List Byte := (bs.drop a).take n

end Sys2Proof.Machine
end

