-- ==== Sys2Proof/Machine/Ecdsa.lean ====
section
/-! DEFINITION. The signature check: ECDSA over the P-256 curve (R23). PRESUMED, log 10: the curve and the check's inside are those of
the public standard the spec names (FIPS 186) and does not repeat. -/

namespace Sys2Proof.Machine

/-- The field prime of P-256. -/
def p256Prime : Nat := 0xFFFFFFFF00000001000000000000000000000000FFFFFFFFFFFFFFFFFFFFFFFF
/-- The order of the base point. -/
def p256Order : Nat := 0xFFFFFFFF00000000FFFFFFFFFFFFFFFFBCE6FAADA7179E84F3B9CAC2FC632551
/-- The curve's b; its a is -3. -/
def p256B : Nat := 0x5AC635D8AA3A93E7B3EBBD55769886BC651D06B0CC53B0F63BCE3C3E27D2604B
/-- The base point. -/
def p256Base : Nat × Nat :=
  (0x6B17D1F2E12C4247F8BCE6E563A440F277037D812DEB33A0F4A13945D898C296,
   0x4FE342E2FE1A7F9B8EE7EB4A7C0F9E162BCE33576B315ECECBB6406837BF51F5)

/-- `x - y` modulo the prime, for `y` below it. -/
def subP (x y : Nat) : Nat := (x + (p256Prime - y)) % p256Prime
/-- `x * y` modulo the prime. -/
def mulP (x y : Nat) : Nat := x * y % p256Prime

/-- A point in Jacobian coordinates; `z = 0` is the point at infinity. -/
structure JPoint where
  x : Nat
  y : Nat
  z : Nat
deriving DecidableEq, Repr

/-- The point at infinity. -/
def JPoint.infinity : JPoint := ⟨1, 1, 0⟩

/-- A point of the curve given by its affine coordinates. -/
def JPoint.ofAffine (q : Nat × Nat) : JPoint := ⟨q.1, q.2, 1⟩

/-- Twice a point. -/
def JPoint.double (q : JPoint) : JPoint :=
  if q.z = 0 ∨ q.y = 0 then JPoint.infinity
  else
    let y2 := mulP q.y q.y
    let s := 4 * mulP q.x y2 % p256Prime
    let z2 := mulP q.z q.z
    let m := 3 * mulP (subP q.x z2) ((q.x + z2) % p256Prime) % p256Prime
    let x' := subP (mulP m m) (2 * s % p256Prime)
    ⟨x', subP (mulP m (subP s x')) (8 * mulP y2 y2 % p256Prime), 2 * mulP q.y q.z % p256Prime⟩

/-- The sum of two points. -/
def JPoint.add (q r : JPoint) : JPoint :=
  if q.z = 0 then r
  else if r.z = 0 then q
  else
    let q2 := mulP q.z q.z
    let r2 := mulP r.z r.z
    let u1 := mulP q.x r2
    let u2 := mulP r.x q2
    let s1 := mulP q.y (mulP r2 r.z)
    let s2 := mulP r.y (mulP q2 q.z)
    if u1 = u2 then (if s1 = s2 then q.double else JPoint.infinity)
    else
      let h := subP u2 u1
      let t := subP s2 s1
      let h2 := mulP h h
      let h3 := mulP h h2
      let v := mulP u1 h2
      let x' := subP (subP (mulP t t) h3) (2 * v % p256Prime)
      ⟨x', subP (mulP t (subP v x')) (mulP s1 h3), mulP h (mulP q.z r.z)⟩

/-- `u * g + v * q`, bit by bit from bit `n - 1` down. -/
def JPoint.twice (u v : Nat) (g q gq : JPoint) : Nat → JPoint → JPoint
  | 0, acc => acc
  | n + 1, acc =>
    let d := acc.double
    JPoint.twice u v g q gq n
      (match u.testBit n, v.testBit n with
      | false, false => d
      | true, false => d.add g
      | false, true => d.add q
      | true, true => d.add gq)

/-- `b ^ e mod m`, for `e` below `2 ^ n`. -/
def powMod (b m : Nat) : Nat → Nat → Nat → Nat
  | 0, _, acc => acc
  | n + 1, e, acc =>
    powMod b m n e (if e.testBit n then acc * acc % m * b % m else acc * acc % m)

/-- Whether the coordinates are those of a point of the curve. -/
def onCurve (q : Nat × Nat) : Bool :=
  q.1 < p256Prime && q.2 < p256Prime &&
    (q.2 * q.2 + 3 * q.1) % p256Prime == (q.1 * q.1 * q.1 + p256B) % p256Prime

/-- The check of a signature (r, s) on a 256-bit hash under a public point. -/
def ecdsaAccepts (q : Nat × Nat) (hash r s : Nat) : Bool :=
  if r = 0 ∨ p256Order ≤ r ∨ s = 0 ∨ p256Order ≤ s then false
  else
    let w := powMod s p256Order 256 (p256Order - 2) 1
    let u := hash * w % p256Order
    let v := r * w % p256Order
    let g := JPoint.ofAffine p256Base
    let k := JPoint.ofAffine q
    let x := JPoint.twice u v g k (g.add k) 256 JPoint.infinity
    if x.z = 0 then false
    else
      let zi := powMod x.z p256Prime 256 (p256Prime - 2) 1
      mulP x.x (mulP zi zi) % p256Order == r

/-- The result of a signature check (R23): key bytes x then y, signature bytes r then s, each 32 bytes most significant first. For key
bytes that are no point of the curve R23 states no result: a free value (log 10). -/
def checkSignature (key : List Byte) (digest : BitVec 256) (signature : List Byte) : Bool :=
  let q := (beNat (slice key 0 32), beNat (slice key 32 32))
  if onCurve q then ecdsaAccepts q digest.toNat (beNat (slice signature 0 32)) (beNat (slice signature 32 32))
  else Config.checkWithoutPoint key digest signature

end Sys2Proof.Machine
end

