-- ==== Sys2Proof/Machine/Ops.lean ====
section
/-! DEFINITION. The named reads and writes of the records of State: runtime records, pair records, contexts, shadow. Every other
operation of the model goes through them. -/

namespace Sys2Proof.Machine

/-! ## Regions and runtime records -/

/-- The configured record of region `i`, if the slot is used (R1). -/
def State.region (s : State) (i : Nat) : Option Region := s.regions[i]?

/-- The runtime record of region `i`, if it has one (R2). -/
def State.rt (s : State) (i : Nat) : Option Runtime := (s.runtime[i]?).join

/-- The region state of region `i`, if it has a runtime record. -/
def State.rstate (s : State) (i : Nat) : Option RState := (s.rt i).map Runtime.state

/-- Rewrites the runtime record of region `i`, if it has one. -/
def State.modRt (s : State) (i : Nat) (f : Runtime → Runtime) : State :=
  { s with runtime := s.runtime.modify i (Option.map f) }

/-- A runtime record set afresh for a new attempt of run `tag`, in the given state (R2). -/
def Runtime.fresh (tag : BitVec 16) (state : RState) : Runtime :=
  { state, reason := none, recorded := none, progress := 0, context := none, observed := false, runTag := tag }

/-- The record of a region whose attempt ends STALE: the recorded fields are kept, the reason is absent, no context is held (R43). -/
def Runtime.markStale (r : Runtime) : Runtime := { r with state := .stale, reason := none, context := none }

/-- The record of a region that is rejected: the reason is present and no context is held (R31, R53). -/
def Runtime.reject (reason : Reason) (r : Runtime) : Runtime :=
  { r with state := .rejected, reason := some reason, context := none }

/-! ## Pairs -/

/-- The region of a slot (R7). -/
def Pair.region (p : Pair) : Slot → Nat
  | .home => p.home
  | .alternate => p.alternate

/-- The slot that region `i` is, if it is one (R7). -/
def Pair.slotOf (p : Pair) (i : Nat) : Option Slot :=
  if p.home = i then some .home else if p.alternate = i then some .alternate else none

/-- The slot a selection names. -/
def Selection.slot : Selection → Option Slot
  | .none => Option.none
  | .home => some .home
  | .alternate => some .alternate

/-- The selection that names a slot. -/
def Slot.selection : Slot → Selection
  | .home => .home
  | .alternate => .alternate

/-- The region the selection names, if it names a slot. -/
def Pair.selected (p : Pair) : Option Nat := p.selection.slot.map p.region

/-- Region `i` is the selection of the pair. -/
def Pair.isSelection (p : Pair) (i : Nat) : Bool := p.selected == some i

/-- The selection procedure of the pair is under way: SELECTING, TRYING_FIRST or TRYING_SECOND (3.4). -/
def Pair.unfinished (p : Pair) : Bool :=
  match p.state with
  | .selecting | .tryingFirst | .tryingSecond => true
  | .selected | .failed => false

/-- The pair is hashing or checking a candidate. -/
def Pair.trying (p : Pair) : Bool :=
  match p.state with
  | .tryingFirst | .tryingSecond => true
  | .selecting | .selected | .failed => false

/-- Pair record `j`. -/
def State.pair (s : State) (j : Nat) : Option Pair := s.pairs[j]?

/-- The number of the pair that region `i` is a slot of. -/
def State.pairOf (s : State) (i : Nat) : Option Nat := s.pairs.findIdx? fun p => (p.slotOf i).isSome

/-- Rewrites pair record `j`. -/
def State.modPair (s : State) (j : Nat) (f : Pair → Pair) : State := { s with pairs := s.pairs.modify j f }

/-- The configured role, gate of a pair: those its two slots agree on (R5). -/
def State.pairRole (s : State) (p : Pair) : Option Role := (s.region p.home).bind Region.role
def State.pairGate (s : State) (p : Pair) : Option Gate := (s.region p.home).map Region.gate

/-! ## Contexts -/

/-- The record of context `c`, if it is held (R59). -/
def State.ctx (s : State) (c : Fin 4) : Option Ctx := s.contexts[c]

/-- Writes the record of context `c`. -/
def State.setCtx (s : State) (c : Fin 4) (x : Option Ctx) : State := { s with contexts := s.contexts.set c x }

/-- The context that an owner holds. -/
def State.ctxOf (s : State) (o : Owner) : Option (Fin 4) :=
  (List.finRange 4).find? fun c => (s.ctx c).any fun x => x.owner == o

/-- A burst for context `c` is in progress (R136). -/
def State.burstFor (s : State) (c : Fin 4) : Bool :=
  match s.fp.holder with
  | .own (.burst c' _) => c' == c
  | _ => false

/-- The flash port raises the flash select and the flash becomes FREE (R134, R136). -/
def FlashPort.toFree (f : FlashPort) : FlashPort := { f with holder := .free, select := false }

/-- Releasing a context (R72): its owner, header store and digest go, the regions that show it show none, and a burst in progress for
it ends (R68). -/
def State.releaseCtx (s : State) (c : Fin 4) : State :=
  { s with
    contexts := s.contexts.set c none
    runtime := s.runtime.map (Option.map fun r => if r.context = some c then { r with context := none } else r)
    fp := if s.burstFor c then s.fp.toFree else s.fp }

/-- Releases the context an owner holds, if it holds one. -/
def State.releaseOwner (s : State) (o : Owner) : State :=
  match s.ctxOf o with
  | some c => s.releaseCtx c
  | none => s

/-! ## Permit state -/

/-- The permit states in which the part relays, verifies and answers requests (R93). -/
def PermitState.running : PermitState → Bool
  | .verifying | .permitted | .denied => true
  | .loading | .unprovisioned | .provisioning | .provisioned | .fault => false

/-- The mode a permit state asks of the upstream port (R93). -/
def PermitState.mode : PermitState → PortMode
  | .loading | .provisioning | .provisioned | .fault => .detached
  | .unprovisioned => .passThrough
  | .verifying | .permitted | .denied => .relaying

/-- A change of mode takes effect while upstream select is deasserted (R94). -/
def State.settleMode (s : State) : State :=
  if s.up.select then s else { s with up := { s.up with mode := s.permit.mode } }

/-! ## Shadow -/

/-- Rewrites the flash shadow. -/
def State.modShadow (s : State) (f : Shadow → Shadow) : State := { s with fp := { s.fp with shadow := f s.fp.shadow } }

/-- Power becomes ASLEEP, and with it sleep pending no (R127). -/
def Shadow.fallAsleep (sh : Shadow) : Shadow := { sh with power := .asleep, sleepPending := false }

/-! ## Geometry -/

/-- The flash size S (R4, geometry n). -/
def State.flashSize (s : State) : Nat := 2 ^ s.cfg.geometry

end Sys2Proof.Machine
end

