-- ==== Sys2Proof/Machine/Map.lean ====
section
/-! DEFINITION. Chapter 1's arithmetic: the region of an address, the translation list and its windows, the stream arithmetic, the
affected range of a write and what it touches. -/

namespace Sys2Proof.Machine

/-- A physical address lies in the region (R3). -/
def Region.holds (r : Region) (a : Nat) : Bool := decide (r.base ≤ a) && decide (a < r.base + r.length)

/-- The index of the region an address lies in; none in unmapped space (R3). -/
def State.regionAt (s : State) (a : Nat) : Option Nat := s.regions.findIdx? (·.holds a)

/-! ## The translation list (R8 to R10) -/

/-- Inserts an entry at its place in from-base order (R8). -/
def insertWindow (w : Window) : List Window → List Window
  | [] => [w]
  | v :: vs => if w.from_ ≤ v.from_ then w :: v :: vs else v :: insertWindow w vs

/-- The list without the entries of pair `j` (R9). -/
def dropPair (j : Nat) (ws : List Window) : List Window := ws.filter fun w => !(w.cause == .pair && w.owner == some j)

/-- The recovery swap is present: the list holds RECOVERY entries (R8). -/
def recoveryPresent (ws : List Window) : Bool := ws.any fun w => w.cause == .recovery

/-- The pair owns the boot-window region (R10). -/
def State.ownsBoot (s : State) (p : Pair) : Bool :=
  s.cfg.bootWindow.any fun b => (p.slotOf b).isSome

/-- The two entries of a swap of two windows of one length (R9, R10). -/
def installSwap (a b len : Nat) (cause : WindowCause) (owner : Option Nat) (ws : List Window) : List Window :=
  insertWindow ⟨a, b, len, cause, owner⟩ (insertWindow ⟨b, a, len, cause, owner⟩ ws)

/-- The window unit follows a change of pair `j`'s selection (R9): ALTERNATE installs its two entries, unless the pair is displaced by
the recovery swap (R10); HOME or NONE removes them. -/
def State.windowsFor (s : State) (j : Nat) (p : Pair) (sel : Selection) : List Window :=
  match sel, s.region p.home, s.region p.alternate with
  | .alternate, some h, some a =>
    if recoveryPresent s.trans && s.ownsBoot p then s.trans
    else installSwap h.base a.base h.length .pair (some j) (dropPair j s.trans)
  | _, _, _ => dropPair j s.trans

/-- The selection of pair `j` changes, and the window unit follows in the same event (R7, R9). -/
def State.setSelection (s : State) (j : Nat) (sel : Selection) : State :=
  match s.pair j with
  | none => s
  | some p => { (s.modPair j fun p => { p with selection := sel }) with trans := s.windowsFor j p sel }

/-- The index of the RECOVERY region, if one is configured (R6). -/
def State.recoveryRegion (s : State) : Option Nat := s.regions.findIdx? fun r => r.role == some .recovery

/-- Installing the recovery swap (R10, R159): the entries of every pair that owns the boot window go first, then the two RECOVERY
entries join; a second request changes nothing. The permit controller sets its flag in the same event. -/
def State.installRecovery (s : State) : State :=
  match s.cfg.bootWindow.bind s.region, s.recoveryRegion.bind s.region with
  | some boot, some rec =>
    if recoveryPresent s.trans then s
    else
      let kept := s.trans.filter fun w => !(w.cause == .pair && (w.owner.bind s.pair).any s.ownsBoot)
      { s with trans := installSwap boot.base rec.base boot.length .recovery none kept, recoverySwap := true }
  | _, _ => s

/-! ## The stream arithmetic (R12 to R15) -/

/-- The translation of a logical address through a list (R13). -/
def translate (ws : List Window) (l : Nat) : Nat :=
  match ws.find? fun w => decide (w.from_ ≤ l) && decide (l < w.from_ + w.length) with
  | some w => l - w.from_ + w.to_
  | none => l

/-- The address field of `w` bytes as received (R12). -/
def addressField (w : Nat) (a : BitVec 32) : Nat := a.toNat % 2 ^ (8 * w)

/-- The logical start address l₀ (R12), or the logical address l of a write (R17). -/
def State.logical (s : State) (w : Nat) (a : BitVec 32) : Nat := addressField w a % s.flashSize

/-- The wanted physical address of stream byte `k` (R12, R13). -/
def wanted (ws : List Window) (size l0 k : Nat) : Nat := translate ws ((l0 + k) % size)

/-- The physical address the flash delivers as stream byte `k` (R13). -/
def delivered (ws : List Window) (size l0 k : Nat) : Nat := (translate ws l0 + k) % size

/-- The physical start address does not fit a 3-byte field (R14, R18). -/
def outOfField (w p : Nat) : Bool := w == 3 && decide (2 ^ 24 ≤ p)

/-! ## The affected range (R17, R20) -/

/-- The affected range of a program or erase at translated address `p`, as first byte and length (R17). -/
def affectedRange (cls : TxClass) (p size : Nat) : Option (Nat × Nat) :=
  match cls with
  | .program => some (p - p % 256, 256)
  | .eraseSector => some (p - p % 4096, 4096)
  | .eraseBlock => some (p - p % 65536, 65536)
  | .eraseChip => some (0, size)
  | _ => none

/-- The region shares at least one byte with the range (R20). -/
def Region.touched (r : Region) (range : Nat × Nat) : Bool :=
  decide (range.1 < r.base + r.length) && decide (r.base < range.1 + range.2) && decide (0 < r.length) && decide (0 < range.2)

/-- The indices of the touched regions, in table order (R20). -/
def State.touchedRegions (s : State) (range : Nat × Nat) : List Nat :=
  (s.regions.zipIdx.filter fun (r, _) => r.touched range).map (·.2)

/-- An address of the range. -/
def inRange (range : Nat × Nat) (a : Nat) : Bool := decide (range.1 ≤ a) && decide (a < range.1 + range.2)

/-- The range holds at least one byte that lies in no region (R20). The first such byte is the range's first byte or the byte after a
region, so only those are looked at. -/
def State.touchesUnmapped (s : State) (range : Nat × Nat) : Bool :=
  (range.1 :: s.regions.map fun r => r.base + r.length).any fun a => inRange range a && (s.regionAt a).isNone

end Sys2Proof.Machine
end

