-- ==== Sys2Proof/Machine/Gate.lean ====
section
/-! DEFINITION. Chapter 5: the effective gate of a region and the decision for one byte. -/

namespace Sys2Proof.Machine

/-- The effective gate of region `i` with record `r` in the running permit states (R78). -/
def State.effectiveGate (s : State) (i : Nat) (r : Region) : Gate :=
  match (s.pairOf i).bind s.pair with
  | none => r.gate
  | some p =>
    if p.selection = .none ∨ p.isSelection i then (if p.escalated then .hold else r.gate)
    else .opened

/-- A physical address lies in the signed extent of a region with signed length `len` (R22): the manifest and the signed payload. -/
def Region.inExtent (r : Region) (len a : Nat) : Bool :=
  (decide (r.base ≤ a) && decide (a < r.base + 80))
    || (decide (r.base + 256 ≤ a) && decide (a < r.base + 256 + len))

/-- The gate's outcome for one byte (R81): FLASH, or FILL with its cause. -/
inductive Decision where
  | flash
  | fill (cause : FillCause)
deriving DecidableEq, Repr

/-- The gate's decision for an aligned byte at physical address `a` (R81, rows in their order). -/
def State.gateByte (s : State) (a : Nat) : Decision :=
  match s.regionAt a with
  | none => .flash
  | some i =>
    match s.region i with
    | none => .flash
    | some r =>
      let gate := s.effectiveGate i r
      if gate = .opened then .flash
      else
        match s.rt i with
        | none => .fill .gate
        | some t =>
          if t.state = .verified then
            if t.recorded.any fun m => r.inExtent m.signedLength a then .flash else .fill .tail
          else if gate = .observe ∧ t.state ≠ .rejected ∧ t.state ≠ .stale then .flash
          else .fill .gate

/-- The decision for stream byte `k` of a relayed READ (R16): alignment first (R15), then the gate. -/
def State.streamByte (s : State) (ws : List Window) (l0 k : Nat) : Decision :=
  let p := wanted ws s.flashSize l0 k
  if p = delivered ws s.flashSize l0 k then s.gateByte p else .fill .crossing

/-- A cause joins the cause set (R86). -/
def Causes.join (c : Causes) : FillCause → Causes
  | .halted => c
  | .range => { c with range := true }
  | .crossing => { c with crossing := true }
  | .tail => { c with tail := true }
  | .gate => { c with gate := true }

/-- A count of 8 bits that stays at 255 (R87, R124). -/
def bump (n : Nat) : Nat := if n < 255 then n + 1 else n

/-- The tally after a cause set is handed over (R87). -/
def Tally.add (t : Tally) (c : Causes) : Tally :=
  { range := if c.range then bump t.range else t.range
    crossing := if c.crossing then bump t.crossing else t.crossing
    tail := if c.tail then bump t.tail else t.tail
    gate := if c.gate then bump t.gate else t.gate }

end Sys2Proof.Machine
end

