-- ==== Sys2Proof/Machine/Filter.lean ====
section
/-! DEFINITION. Chapter 7: effective write policies, the judgement of a write, the violation record. -/

namespace Sys2Proof.Machine

/-- The effective write policy of a slot of a pair (R112): `true` for LOCKED. -/
def State.slotLocked (s : State) (p : Pair) (i : Nat) : Bool :=
  match p.selection with
  | .none => !(p.state == .failed && s.permit == .denied)
  | .home | .alternate => p.isSelection i

/-- The effective write policy of region `i` with record `r` (R110, R111, R112): `true` for LOCKED, `false` for FREE. -/
def State.lockedRegion (s : State) (i : Nat) (r : Region) : Bool :=
  match s.permit with
  | .unprovisioned => false
  | .loading | .provisioning | .provisioned | .fault => true
  | .verifying | .permitted | .denied =>
    match r.policy with
    | .free => false
    | .locked =>
      !(s.permit == .denied && r.role == some .required
          && (s.rstate i == some .rejected || s.rstate i == some .stale))
    | .slot =>
      match (s.pairOf i).bind s.pair with
      | some p => s.slotLocked p i
      | none => true

/-- The effective write policy of unmapped space (R110): `true` for LOCKED. -/
def State.lockedUnmapped (s : State) : Bool :=
  match s.permit with
  | .unprovisioned => false
  | .loading | .provisioning | .provisioned | .fault => true
  | .verifying | .permitted | .denied => s.cfg.unmapped != .free

/-- Some touched region, or touched unmapped space, has effective write policy LOCKED (R114 rows 2 and 3, R115). -/
def State.rangeLocked (s : State) (range : Nat × Nat) : Bool :=
  ((s.touchedRegions range).any fun i => (s.region i).any fun r => s.lockedRegion i r)
    || (s.touchesUnmapped range && s.lockedUnmapped)

/-- The write filter's decision on a PROGRAM, ERASE_SECTOR or ERASE_BLOCK (R114): the cause of a refusal, or none to forward. -/
def State.judgeWrite (s : State) (w p : Nat) (range : Nat × Nat) : Option RefusalCause :=
  if outOfField w p then some .range else if s.rangeLocked range then some .policy else none

/-- A refusal enters the violation record and sets the VIOLATION alert cause (R119, R124). -/
def State.recordRefusal (s : State) (cls : TxClass) (address : Option Nat) (cause : RefusalCause) : State :=
  { s with
    violation := ⟨bump s.violation.count, some ⟨cls, address, cause⟩⟩
    alerts := { s.alerts with violation := true } }

end Sys2Proof.Machine
end

