-- ==== Sys2Proof/Machine/Layout.lean ====
section
/-! DEFINITION. The provisioning image (R176), the store's cells (R173), and the validation of a configuration (R4 to R6, R95, R107,
R176). -/

namespace Sys2Proof.Machine

/-! ## Field codes (R176: codes follow the order in which R1 and R95 list each field's values) -/

/-- The class of a class code; code 15 marks a byte the printer does not list, loaded as BARRED. -/
def classOfCode : Nat → TxClass
  | 0 => .read | 1 => .program | 2 => .eraseSector | 3 => .eraseBlock | 4 => .eraseChip | 5 => .writeEnable
  | 6 => .writeDisable | 7 => .statusRead | 8 => .statusWrite | 9 => .sleep | 10 => .wake | 11 => .resume
  | 12 => .plain | 13 => .service | _ => .barred

/-- The address bytes of an address-byte code. -/
def addrBytesOfCode : Nat → Option Nat
  | 0 => some 0 | 1 => some 3 | 2 => some 4 | _ => none

/-- The lines of a width code. -/
def widthOfCode : Nat → Option Nat
  | 0 => some 1 | 1 => some 2 | 2 => some 4 | _ => none

/-- A class table entry keeps to the shape of its class (R95). -/
def ClassEntry.shaped (e : ClassEntry) : Bool :=
  match e.cls with
  | .read => e.addrBytes != 0
  | .program | .eraseSector | .eraseBlock => e.addrBytes != 0 && e.dummy == 0
  | .eraseChip | .writeEnable | .writeDisable | .sleep | .wake | .resume | .statusWrite | .service =>
    e.addrBytes == 0 && e.dummy == 0
  | .statusRead => e.addrBytes == 0
  | .plain | .barred => true

/-- A class table entry from its two bytes (R176), if its codes are in their ranges and it has the shape of its class. The codes of a
BARRED or unlisted entry are held to their ranges like any other's; its shape is not used (R95) and not kept. Bits 4 and 5 of the first
byte name nothing and are ignored: DESIGN CHOICE, log 12. -/
def entryOfBytes (b0 b1 : Byte) : Option ClassEntry :=
  match addrBytesOfCode (b0.toNat / 64), widthOfCode (b1.toNat / 16 % 4), widthOfCode (b1.toNat / 64) with
  | some a, some aw, some dw =>
    let e : ClassEntry := ⟨classOfCode (b0.toNat % 16), a, aw, b1.toNat % 16, dw⟩
    if e.cls = .barred then some ClassEntry.unlisted else if e.shaped then some e else none
  | _, _, _ => none

/-- The class table from its bytes, two an entry. -/
def tableOfBytes : List Byte → Option (List ClassEntry)
  | b0 :: b1 :: rest =>
    match entryOfBytes b0 b1, tableOfBytes rest with
    | some e, some es => some (e :: es)
    | _, _ => none
  | _ => some []

/-- A field of a region record that may be absent: FFh is absent, a value below `bound` is present. -/
def optionalCode (b : Byte) (bound : Nat) : Option (Option Nat) :=
  if b = 0xFF then some none else if b.toNat < bound then some (some b.toNat) else none

def gateOfCode : Nat → Option Gate
  | 0 => some .hold | 1 => some .observe | 2 => some .fill | 3 => some .opened | _ => none

def policyOfCode : Nat → Option Policy
  | 0 => some .locked | 1 => some .free | 2 => some .slot | _ => none

def roleOfCode : Nat → Role
  | 0 => .required | 1 => .optional | _ => .recovery

/-- A used region record from its eleven bytes after the used flag (R176); base and length come in units of 4 KiB. A field byte that is
neither a listed code nor, in a field that may be absent, FFh fails validation: DESIGN CHOICE, log 13. -/
def regionOfBytes : List Byte → Option Region
  | [b0, b1, l0, l1, g, pol, ro, ki, pr, pa, ho] =>
    match gateOfCode g.toNat, policyOfCode pol.toNat, optionalCode ro 3, optionalCode ki 8, optionalCode pr 4,
      optionalCode pa 16, optionalCode ho 2 with
    | some gate, some policy, some role, some kind, some priority, some partner, some home =>
      some
        { base := leNat [b0, b1] * 4096, length := leNat [l0, l1] * 4096, gate, policy
          role := role.map roleOfCode, kind := kind.map (Fin.ofNat 8), priority := priority.map (Fin.ofNat 4)
          partner, home := home.map (· == 0) }
    | _, _, _, _, _, _, _ => none
  | _ => none

/-- The used records of `n` region record slots of 12 bytes; every used slot precedes every empty slot (R4). A used flag other than 0
and 1 fails (log 13). -/
def regionsOfBytes : Nat → List Byte → Option (List Region)
  | 0, _ => some []
  | n + 1, bs =>
    match byteAt bs 0, regionsOfBytes n (bs.drop 12) with
    | 0, some [] => some []
    | 1, some rs => (regionOfBytes (slice bs 1 11)).map (· :: rs)
    | _, _ => none

/-! ## Region table validation (R4 to R6) -/

/-- The end of a region, exclusive. -/
def Region.stop (r : Region) : Nat := r.base + r.length

/-- A region whose configured gate is not OPEN (R2). -/
def Region.verifiable (r : Region) : Bool := r.gate != .opened

/-- The checks of R4 on one record, for a flash of `size` bytes. -/
def Region.checked (size : Nat) (r : Region) : Bool :=
  decide (4096 ≤ r.length) && decide (r.stop ≤ size)
    && (r.role.isSome == r.verifiable) && (r.kind.isSome == r.verifiable) && (r.priority.isSome == r.verifiable)
    && (r.partner.isSome == r.home.isSome)
    && (!r.verifiable || decide (8192 ≤ r.length))
    && (r.role != some .required || r.policy != .free)
    && ((r.policy == .slot) == r.partner.isSome)

/-- Sorted by base, no two overlapping (R4). -/
def regionsSorted : List Region → Bool
  | r :: r' :: rest => decide (r.stop ≤ r'.base) && regionsSorted (r' :: rest)
  | _ => true

/-- A multiple of 64 KiB. -/
def aligned64K (n : Nat) : Bool := n % 65536 == 0

/-- The pair checks of R5 on region `i`, if it names a partner. -/
def pairChecked (rs : List Region) (i : Nat) (r : Region) : Bool :=
  match r.partner with
  | none => true
  | some q =>
    match rs[q]? with
    | none => false
    | some r' =>
      q != i && r'.partner == some i && r.length == r'.length && aligned64K r.base && aligned64K r.length
        && r.gate == r'.gate && r.role == r'.role && r.kind == r'.kind && r.priority == r'.priority
        && r.gate != .opened && (r.home == some true) != (r'.home == some true)

/-- The pair records of a region table, in ascending order of the lower region index (R5, R7), as they stand from the load on. -/
def pairsOf (rs : List Region) : List Pair :=
  rs.zipIdx.filterMap fun (r, i) =>
    match r.partner with
    | some q =>
      if i < q then
        some
          { home := if r.home = some true then i else q, alternate := if r.home = some true then q else i
            selection := .none, state := .selecting, order := [], escalated := false }
      else none
    | none => none

/-- The recovery checks of R6, with the boot-window index byte of the image (FFh: absent). -/
def recoveryChecked (rs : List Region) (boot : Byte) : Bool :=
  match rs.zipIdx.filter fun (r, _) => r.role == some .recovery with
  | [] => boot == 0xFF
  | [(r, i)] =>
    r.gate == .hold && r.policy == .locked && r.partner.isNone && aligned64K r.base && aligned64K r.length
      && boot != 0xFF && boot.toNat != i
      && (match rs[boot.toNat]? with
          | none => false
          | some b => b.gate == .hold && b.length == r.length && aligned64K b.base && aligned64K b.length)
  | _ => false

/-- The region table passes validation (R4 to R6). -/
def regionsChecked (size : Nat) (rs : List Region) (boot : Byte) : Bool :=
  rs.all (Region.checked size) && regionsSorted rs && (rs.zipIdx.all fun (r, i) => pairChecked rs i r)
    && decide ((pairsOf rs).length ≤ 4) && recoveryChecked rs boot

/-! ## The configuration proper: bytes 0 to 998 of the image without the key slots' states and the initial floors (R177) -/

/-- The configuration-proper bytes of an image, in ascending image order. -/
def configProper (image : List Byte) : List Byte :=
  image.take 726 ++ slice image 727 65 ++ slice image 793 65 ++ slice image 859 65 ++ slice image 925 65 ++ slice image 998 1

/-- What a valid configuration hands to the blocks (R175): values, regions, the keys' allowed kinds and bytes, the clock values. -/
structure LoadedConfig where
  cfg     : Cfg
  regions : List Region
  keys    : Vector (BitVec 8 × List Byte) 4
  fRef    : Nat
  n       : Nat
  m       : Nat
  p       : Nat
deriving DecidableEq, Repr

/-- The class table entry of an instruction byte. -/
def tableEntry (t : List ClassEntry) (b : Byte) : ClassEntry := t.getD b.toNat ClassEntry.unlisted

/-- The designated instructions keep to R107, and exactly one entry, that of the service byte, has class SERVICE (R95). -/
def Cfg.instructionsChecked (c : Cfg) : Bool :=
  (tableEntry c.table c.verifierRead).cls == .read
    && (decide (c.geometry ≤ 24) || (tableEntry c.table c.verifierRead).addrBytes == 4)
    && (tableEntry c.table c.statusRead).cls == .statusRead
    && (tableEntry c.table c.writeDisable).cls == .writeDisable
    && (tableEntry c.table c.wake).cls == .wake
    && (tableEntry c.table c.sleep).cls == .sleep
    && (tableEntry c.table c.serviceByte).cls == .service
    && (c.table.countP fun e => e.cls == .service) == 1

/-- The range checks of R176 on the values of `Cfg`. -/
def Cfg.rangesChecked (c : Cfg) : Bool :=
  decide (20 ≤ c.geometry) && decide (c.geometry ≤ 27) && decide (1 ≤ c.holdPulse) && decide (1 ≤ c.pollInterval)
    && decide (c.burstExp ≤ 4)

/-- Key slot `i` of the configuration proper: allowed kinds and key bytes. -/
def keyOfBytes (bs : List Byte) (i : Nat) : BitVec 8 × List Byte :=
  (byteAt bs (726 + 65 * i), slice bs (727 + 65 * i) 64)

/-- A configuration read from its configuration-proper bytes, if it passes validation (R176). -/
def configOfBytes (bs : List Byte) : Option LoadedConfig :=
  let v := slice bs 513 9
  let t := slice bs 714 12
  match tableOfBytes (slice bs 1 512), regionsOfBytes 16 (slice bs 522 192), policyOfCode (byteAt t 1).toNat with
  | some table, some regions, some unmapped =>
    let boot := byteAt t 0
    let cfg : Cfg :=
      { geometry := (byteAt bs 0).toNat, table
        verifierRead := byteAt v 0, statusRead := byteAt v 1, writeDisable := byteAt v 2, wake := byteAt v 3, sleep := byteAt v 4
        busyBit := Fin.ofNat 8 (byteAt v 5).toNat, latchBit := Fin.ofNat 8 (byteAt v 6).toNat
        serviceByte := byteAt v 7, tag := byteAt v 8
        bootWindow := if boot = 0xFF then none else some boot.toNat
        unmapped, statusAllow := byteAt t 2 == 0
        deadline := (byteAt t 3).toNat, holdPulse := (byteAt t 4).toNat, wakeTime := (byteAt t 5).toNat
        pollInterval := (byteAt t 6).toNat, burstExp := (byteAt t 7).toNat, alertEnable := byteAt t 11 == 1 }
    let fRef := (byteAt bs 986).toNat
    if cfg.rangesChecked && cfg.instructionsChecked && regionsChecked (2 ^ cfg.geometry) regions boot
        && decide ((byteAt v 5).toNat ≤ 7) && decide ((byteAt v 6).toNat ≤ 7) && unmapped != .slot
        && decide ((byteAt t 2).toNat ≤ 1) && decide ((byteAt t 11).toNat ≤ 1) && decide (8 ≤ fRef) && decide (fRef ≤ 40) then
      some
        { cfg, regions, keys := Vector.ofFn fun i => keyOfBytes bs i.1
          fRef, n := (byteAt t 8).toNat, m := (byteAt t 9).toNat, p := (byteAt t 10).toNat }
    else none
  | _, _, _ => none

/-! ## The image as a whole (R176, R177) -/

/-- The state byte of key slot `i` in an image. -/
def imageKeyState (image : List Byte) (i : Nat) : Byte := byteAt image (726 + 66 * i)

/-- The initial floor of kind `k` in an image. -/
def imageFloor (image : List Byte) (k : Nat) : Byte := byteAt image (990 + k)

/-- The image's own CRC holds: CRC-32 over bytes 0 to 4091, low byte first at 4092 (R176). -/
def imageCrcHolds (image : List Byte) : Bool :=
  (crc32 (image.take 4092)).toNat == leNat (slice image 4092 4)

/-- The image passes validation (R176). -/
def imageValid (image : List Byte) : Bool :=
  (configOfBytes (configProper image)).isSome
    && ((List.range 4).all fun i => decide ((imageKeyState image i).toNat ≤ 2))
    && ((List.range 8).all fun k => decide ((imageFloor image k).toNat ≤ 63))

/-! ## Cells (R173) -/

/-- Whether a cell is burned. -/
def Store.burned (st : Store) : StoreCell → Bool
  | .config i b => (st.config.getD i 0).getLsbD b
  | .crc b => st.crc.getLsbD b
  | .active s => st.active[s]
  | .revoked s => st.revoked[s]
  | .floor k p => st.floors[k].getLsbD p
  | .sealMark => st.sealed

/-- The store with one more cell burned. -/
def Store.burn (st : Store) : StoreCell → Store
  | .config i b => { st with config := st.config.modify i (· ||| (1#8 <<< b.1)) }
  | .crc b => { st with crc := st.crc ||| (1#32 <<< b.1) }
  | .active s => { st with active := st.active.set s true }
  | .revoked s => { st with revoked := st.revoked.set s true }
  | .floor k p => { st with floors := st.floors.set k (st.floors[k] ||| (1#63 <<< p.1)) }
  | .sealMark => { st with sealed := true }

/-- No cell is burned. -/
def Store.isBlank (st : Store) : Bool :=
  (st.config.all (· == 0)) && st.crc == 0 && (st.active.toList.all (!·)) && (st.revoked.toList.all (!·))
    && (st.floors.toList.all (· == 0)) && !st.sealed

/-- The store an image asks for (R173, R177), its seal mark included. -/
def storeOfImage (image : List Byte) : Store :=
  let proper := configProper image
  { config := proper, crc := crc32 proper
    active := Vector.ofFn fun (i : Fin 4) => imageKeyState image i.1 != 0
    revoked := Vector.ofFn fun (i : Fin 4) => imageKeyState image i.1 == 2
    floors := Vector.ofFn fun (k : Fin 8) => BitVec.ofNat 63 (2 ^ (imageFloor image k.1).toNat - 1)
    sealed := true, cut := none }

/-- Every cell of the store, in ascending store order: the groups as R173 lists them, the floor rows from their first cells, the seal
mark last. DEDUCED, log 14. -/
def storeCells : List StoreCell :=
  (List.range 987).flatMap (fun i => (List.finRange 8).map (.config i))
    ++ (List.finRange 32).map .crc
    ++ (List.finRange 4).flatMap (fun s => [.active s, .revoked s])
    ++ (List.finRange 8).flatMap (fun k => (List.finRange 63).map (.floor k))
    ++ [.sealMark]

/-- A cell burned in the store where the image wants it unburned (R177). -/
def Store.conflicts (st want : Store) : Bool := storeCells.any fun c => st.burned c && !want.burned c

/-- The next cell the provisioning burns: the first that the image wants burned and that is unburned. -/
def Store.nextCell (st want : Store) : Option StoreCell := storeCells.find? fun c => want.burned c && !st.burned c

/-- The floor a row holds: the number of its burned cells (R142). -/
def rowFloor (row : BitVec 63) : Nat := (List.range 63).countP fun i => row.getLsbD i

/-- The next unburned cell of a row (R142). -/
def rowNext (row : BitVec 63) : Option (Fin 63) := (List.finRange 63).find? fun i => !row.getLsbD i

/-- The state of key slot `s` as the store's cells give it (R173). -/
def Store.keyState (st : Store) (s : Fin 4) : KeyState :=
  if st.active[s] then (if st.revoked[s] then .revoked else .active) else .empty

end Sys2Proof.Machine
end

