-- ==== Sys2Proof/Machine/Manifest.lean ====
section
/-! DEFINITION. Chapter 2: the manifest's fields and the six header checks. -/

namespace Sys2Proof.Machine

/-- The marker bytes (R21). -/
def markerBytes : List Byte := [0x53, 0x47, 0x4E, 0x31]

/-- The result of the header checks (R25): the fields recorded on a pass (R30), or the reason of the first failing check. -/
inductive Verdict where
  | pass (fields : Recorded)
  | fail (reason : Reason)
deriving DecidableEq, Repr

/-- The named slot verifies images of kind `k` now (R27): the slot byte names a slot, the slot is ACTIVE, the kind is allowed. -/
def usableSlot (slots : Vector KeySlot 4) (b : Byte) (k : Fin 8) : Option (Fin 4) :=
  if h : b.toNat < 4 then
    let slot := slots[b.toNat]
    if slot.state = .active ∧ slot.allowed.getLsbD k.1 then some ⟨b.toNat, h⟩ else none
  else none

/-- The six header checks on the 16 field bytes, in their order (R25 to R29). -/
def judgeManifest (slots : Vector KeySlot 4) (floors : Vector Nat 8) (r : Region) (m : List Byte) : Verdict :=
  let fields := m.take 16
  let epoch := (byteAt m 7).toNat
  let len := leNat (slice m 12 4)
  if fields = List.replicate 16 0xFF then .fail .blank
  else if m.take 4 ≠ markerBytes ∨ byteAt m 4 ≠ 1 ∨ 63 < epoch then .fail .format
  else
    match r.kind with
    | none => .fail .kind
    | some k =>
      if (byteAt m 5).toNat ≠ k.1 then .fail .kind
      else
        match usableSlot slots (byteAt m 6) k with
        | none => .fail .key
        | some slot =>
          if epoch < floors[k] then .fail .epoch
          else if len = 0 ∨ r.length < 256 + len then .fail .length
          else .pass ⟨len, epoch, leNat (slice m 8 4), slot⟩

/-- The 64 signature bytes of a held manifest (R21). -/
def signatureOf (m : List Byte) : List Byte := slice m 16 64

end Sys2Proof.Machine
end

