-- ==== Sys2Proof/Machine/Sha.lean ====
section
/-! DEFINITION. SHA-256, the digest the spec names (R23), byte by byte. PRESUMED, log 9: the algorithm's inside is that of the public
standard FIPS 180-4, which the spec names and does not repeat. -/

namespace Sys2Proof.Machine

/-- The 32-bit words of a 256-bit row, the high end first. -/
def shaCut (row : BitVec 256) : List (BitVec 32) := (List.range 8).map fun i => row.extractLsb' (224 - 32 * i) 32

/-- The 64 round constants, eight to a row. -/
def shaConstants : List (BitVec 32) :=
  List.flatMap shaCut
    [ 0x428a2f9871374491b5c0fbcfe9b5dba53956c25b59f111f1923f82a4ab1c5ed5
    , 0xd807aa9812835b01243185be550c7dc372be5d7480deb1fe9bdc06a7c19bf174
    , 0xe49b69c1efbe47860fc19dc6240ca1cc2de92c6f4a7484aa5cb0a9dc76f988da
    , 0x983e5152a831c66db00327c8bf597fc7c6e00bf3d5a7914706ca635114292967
    , 0x27b70a852e1b21384d2c6dfc53380d13650a7354766a0abb81c2c92e92722c85
    , 0xa2bfe8a1a81a664bc24b8b70c76c51a3d192e819d6990624f40e3585106aa070
    , 0x19a4c1161e376c082748774c34b0bcb5391c0cb34ed8aa4a5b9cca4f682e6ff3
    , 0x748f82ee78a5636f84c878148cc7020890befffaa4506cebbef9a3f7c67178f2 ]

/-- The chaining words before the first block. -/
def shaInitial : Words8 :=
  ⟨0x6a09e667, 0xbb67ae85, 0x3c6ef372, 0xa54ff53a, 0x510e527f, 0x9b05688c, 0x1f83d9ab, 0x5be0cd19⟩

/-- The small sigma functions of the message schedule. -/
def shaSmall0 (x : BitVec 32) : BitVec 32 := x.rotateRight 7 ^^^ x.rotateRight 18 ^^^ x >>> 3
def shaSmall1 (x : BitVec 32) : BitVec 32 := x.rotateRight 17 ^^^ x.rotateRight 19 ^^^ x >>> 10

/-- The message schedule, newest word first: `n` words are added to those given. -/
def shaExpand : Nat → List (BitVec 32) → List (BitVec 32)
  | 0, w => w
  | n + 1, w =>
    shaExpand n ((shaSmall1 (w.getD 1 0) + w.getD 6 0 + shaSmall0 (w.getD 14 0) + w.getD 15 0) :: w)

/-- The big-endian 32-bit words of a block. -/
def shaWords : List Byte → List (BitVec 32)
  | b0 :: b1 :: b2 :: b3 :: rest => (b0 ++ b1 ++ b2 ++ b3) :: shaWords rest
  | _ => []

/-- One round. -/
def shaRound (v : Words8) (kw : BitVec 32 × BitVec 32) : Words8 :=
  let s1 := v.e.rotateRight 6 ^^^ v.e.rotateRight 11 ^^^ v.e.rotateRight 25
  let ch := (v.e &&& v.f) ^^^ (~~~v.e &&& v.g)
  let t1 := v.h + s1 + ch + kw.1 + kw.2
  let s0 := v.a.rotateRight 2 ^^^ v.a.rotateRight 13 ^^^ v.a.rotateRight 22
  let maj := (v.a &&& v.b) ^^^ (v.a &&& v.c) ^^^ (v.b &&& v.c)
  ⟨t1 + (s0 + maj), v.a, v.b, v.c, v.d + t1, v.e, v.f, v.g⟩

/-- The chaining words after a block of 64 bytes. -/
def shaCompress (h : Words8) (block : List Byte) : Words8 :=
  let w := (shaExpand 48 (shaWords block).reverse).reverse
  let v := (shaConstants.zip w).foldl shaRound h
  ⟨h.a + v.a, h.b + v.b, h.c + v.c, h.d + v.d, h.e + v.e, h.f + v.f, h.g + v.g, h.h + v.h⟩

/-- The running state before the first byte. -/
def Digest.begin : Digest := ⟨shaInitial, [], 0⟩

/-- One byte enters the running state. -/
def Digest.absorb (d : Digest) (b : Byte) : Digest :=
  if d.block.length = 63 then ⟨shaCompress d.words (d.block ++ [b]), [], d.count + 1⟩
  else ⟨d.words, d.block ++ [b], d.count + 1⟩

/-- A byte string enters the running state. -/
def Digest.absorbAll (d : Digest) (bs : List Byte) : Digest := bs.foldl Digest.absorb d

/-- The padding after `count` message bytes: 80h, zeros to a whole number of blocks less 8 bytes, the length in bits. -/
def shaPadding (count : Nat) : List Byte :=
  0x80 :: List.replicate ((119 - count % 64) % 64) 0 ++ beBytes 8 (8 * count)

/-- The 256-bit digest of what was absorbed. -/
def Digest.finish (d : Digest) : BitVec 256 :=
  let w := (d.absorbAll (shaPadding d.count)).words
  w.a ++ w.b ++ w.c ++ w.d ++ w.e ++ w.f ++ w.g ++ w.h

/-- SHA-256 of a message. -/
def sha256 (message : List Byte) : BitVec 256 := (Digest.begin.absorbAll message).finish

end Sys2Proof.Machine
end

