-- ==== Sys2Proof/Machine/Verifier.lean ====
section
/-! DEFINITION. Chapters 3 and 4: grants, header checks, the pair selection procedure, absorption and digest completion, the signature
list, STALE marking, the deadline's rejections. These operations change the records of the run logic, the digest unit and the signature
unit; the grants and checks that follow in the same event are made by `State.settle` (Machine/Permit.lean). -/

namespace Sys2Proof.Machine

/-! ## Granting contexts (R39, R60) -/

/-- The lowest-numbered free context (R60). -/
def State.freeCtx (s : State) : Option (Fin 4) := (List.finRange 4).find? fun c => (s.ctx c).isNone

/-- The base of region `i`. -/
def State.base (s : State) (i : Nat) : Nat := ((s.region i).map Region.base).getD 0

/-- The regions an owner stands for: a region, or both slots of a pair, home first (R37, R59). -/
def State.ownerRegions (s : State) : Owner → List Nat
  | .region i => [i]
  | .pair j => ((s.pair j).map fun p => [p.home, p.alternate]).getD []

/-- A granted region moves to HEADER and shows its context (R39); a region that is not REJECTED has no reason (R2). -/
def State.enterHeader (s : State) (c : Fin 4) (i : Nat) : State :=
  s.modRt i fun r => { r with state := .header, reason := none, context := some c }

/-- The record of a context just granted (R60): empty manifests, the next read at the (home) base, 80 or 160 bytes wanted. -/
def State.grantedCtx (s : State) (o : Owner) : Ctx :=
  { owner := o, phase := .header, digest := none, store := (s.ownerRegions o).map fun i => ⟨i, []⟩
    nextRead := s.base ((s.ownerRegions o).headD 0), wanted := 80 * (s.ownerRegions o).length, runTag := s.runNumber }

/-- The lowest free context is granted to the head of the queue, if there are both (R60). -/
def State.grantOne (s : State) : State :=
  match s.queue, s.freeCtx with
  | o :: rest, some c =>
    (s.ownerRegions o).foldl (fun t i => t.enterHeader c i)
      { (s.setCtx c (some (s.grantedCtx o))) with queue := rest }
  | _, _ => s

/-- Grants are repeated for as long as a context is free and the queue is not empty (R60); four contexts, so four times at most. -/
def State.grants (s : State) : State := s.grantOne.grantOne.grantOne.grantOne

/-! ## The signature unit takes an entry (R74) -/

/-- An idle signature unit takes the oldest entry of the list, reading the key bytes of its slot (R74). -/
def State.takeCheck (s : State) : State :=
  match s.sigUnit, s.sigList with
  | .idle, e :: rest =>
    { s with sigList := rest, sigUnit := .checking e false s.keys.slots[e.keySlot].key s.synth.checkTime }
  | _, _ => s

/-- Withdraws the signature list entry of region `i` (R44): removed from the list, or its check's withdrawn flag set. -/
def State.withdraw (s : State) (i : Nat) : State :=
  { s with
    sigList := s.sigList.filter fun e => e.region != i
    sigUnit :=
      match s.sigUnit with
      | .checking e w key t => .checking e (w || e.region == i) key t
      | .idle => .idle }

/-! ## Digests (R30, R62) -/

/-- The bytes held of region `i`'s manifest in a context. -/
def Ctx.manifest (x : Ctx) (i : Nat) : List Byte := ((x.store.find? fun m => m.region == i).map Manifest.bytes).getD []

/-- Region `i` enters HASHING in context `c`: the digest is begun with the 16 held field bytes, the payload is wanted from its start
(R40, R47, R62). -/
def State.beginDigest (s : State) (c : Fin 4) (i : Nat) : State :=
  match s.ctx c, s.rt i with
  | some x, some r =>
    (s.setCtx c
      (some
        { x with
          phase := .payload, digest := some (Digest.begin.absorbAll ((x.manifest i).take 16))
          nextRead := s.base i + 256, wanted := (r.recorded.map Recorded.signedLength).getD 0 })).modRt i
      fun r => { r with state := .hashing, progress := 0, context := some c }
  | _, _ => s

/-! ## The pair selection procedure (R45 to R51) -/

/-- Pair `j` becomes FAILED (R50): selection NONE, its context released. -/
def State.failPair (s : State) (j : Nat) : State :=
  ((s.setSelection j .none).modPair j fun p => { p with state := .failed }).releaseOwner (.pair j)

/-- The candidate `slot` of pair `j` is tried next, in pair state `st` (R47, R49): the selection names it and its digest begins. -/
def State.tryCandidate (s : State) (j : Nat) (slot : Slot) (st : PairState) : State :=
  match s.pair j, s.ctxOf (.pair j) with
  | some p, some c =>
    ((s.setSelection j slot.selection).modPair j fun p => { p with state := st }).beginDigest c (p.region slot)
  | _, _ => s

/-- The slots of a pair that passed their header checks: they stand in HEADER with recorded fields (R34, R45). -/
def State.passed (s : State) (p : Pair) (slot : Slot) : Option Recorded :=
  match s.rt (p.region slot) with
  | some r => if r.state = .header then r.recorded else none
  | none => none

/-- The candidate order (R34): the higher sequence first, the home slot first on equal sequences, a failed slot left out. -/
def State.rank (s : State) (p : Pair) : List Slot :=
  match s.passed p .home, s.passed p .alternate with
  | some h, some a => if h.sequence < a.sequence then [.alternate, .home] else [.home, .alternate]
  | some _, none => [.home]
  | none, some _ => [.alternate]
  | none, none => []

/-- Both manifests of pair `j` are checked: the candidate order is formed and the pair fails or tries its first candidate (R45 to R47). -/
def State.rankPair (s : State) (j : Nat) : State :=
  match s.pair j with
  | none => s
  | some p =>
    match s.rank p with
    | [] => (s.modPair j fun p => { p with order := [] }).failPair j
    | first :: rest => (s.modPair j fun p => { p with order := first :: rest }).tryCandidate j first .tryingFirst

/-- The waiting candidate of a pair: the second of the order, in HEADER, while the first is tried (R47). -/
def State.waiting (s : State) (p : Pair) : Option Slot :=
  match p.state, p.order with
  | .tryingFirst, [_, w] => if s.rstate (p.region w) = some .header then some w else none
  | _, _ => none

/-- The candidate of pair `j` is VERIFIED (R48): the pair is SELECTED, a waiting candidate is left UNCHECKED, the context goes. -/
def State.candidateVerified (s : State) (j : Nat) : State :=
  match s.pair j with
  | none => s
  | some p =>
    let s1 :=
      match s.waiting p with
      | some w =>
        s.modRt (p.region w) fun r => { r with state := .unchecked, recorded := none, context := none, progress := 0 }
      | none => s
    (s1.modPair j fun p => { p with state := .selected }).releaseOwner (.pair j)

/-- The candidate of pair `j` is rejected (R49): the selection flips to the waiting candidate, escalating an OBSERVE pair, or the pair
fails. -/
def State.candidateRejected (s : State) (j : Nat) : State :=
  match s.pair j with
  | none => s
  | some p =>
    match s.waiting p with
    | some w =>
      (if s.pairGate p = some .observe then s.modPair j fun p => { p with escalated := true } else s).tryCandidate j w .tryingSecond
    | none => s.failPair j

/-- Region `i` is the candidate its pair is trying: the pair's number (R49). -/
def State.candidateOf (s : State) (i : Nat) : Option Nat :=
  (s.pairOf i).filter fun j => (s.pair j).any fun p => p.trying && p.isSelection i

/-! ## Header checks (R24 to R34) -/

/-- Every manifest of a context's header store is gathered whole. -/
def Ctx.gathered (x : Ctx) : Bool := x.store.all fun m => m.bytes.length == 80

/-- The header check of region `i`, whose manifest context `c` has gathered whole: one event (R24, R32). The check is made only while
the region is in HEADER and holds the context under the current run number. -/
def State.headerCheck (s : State) (c : Fin 4) (i : Nat) : State :=
  match s.ctx c, s.region i, s.rt i with
  | some x, some r, some t =>
    if t.state = .header ∧ t.context = some c ∧ x.runTag = s.runNumber then
      match judgeManifest s.keys.slots s.keys.floors r (x.manifest i), x.owner with
      | .pass fields, .region _ => (s.modRt i fun t => { t with recorded := some fields }).beginDigest c i
      | .pass fields, .pair _ => s.modRt i fun t => { t with recorded := some fields }
      | .fail reason, .region _ => (s.modRt i (Runtime.reject reason)).releaseCtx c
      | .fail reason, .pair _ => s.modRt i (Runtime.reject reason)
    else s
  | _, _, _ => s

/-- A manifest of context `c`, that of region `i`, has its 80th byte: the header check, and for a pair whose two manifests are both
gathered the ranking (R24, R34, R45). -/
def State.manifestComplete (s : State) (c : Fin 4) (i : Nat) : State :=
  let s1 := s.headerCheck c i
  match s1.ctx c with
  | some x =>
    match x.owner with
    | .pair j => if x.gathered then s1.rankPair j else s1
    | .region _ => s1
  | none => s1

/-! ## Gathering and absorbing bytes (R61, R66, R69, R71) -/

/-- The manifest a context gathers now: the first that is not whole (R61). -/
def Ctx.gathering (x : Ctx) : Option Manifest := x.store.find? fun m => decide (m.bytes.length < 80)

/-- A burst's byte enters the header store of context `c` (R61). -/
def State.gather (s : State) (c : Fin 4) (b : Byte) : State :=
  match s.ctx c with
  | none => s
  | some x =>
    match x.gathering with
    | none => s
    | some m =>
      let store := x.store.map fun n => if n.region = m.region then ⟨n.region, n.bytes ++ [b]⟩ else n
      let x1 : Ctx := { x with store, wanted := x.wanted - 1, nextRead := x.nextRead + 1 }
      if m.bytes.length = 79 then
        let next := (x1.gathering.map fun n => s.base n.region).getD x1.nextRead
        (s.setCtx c (some { x1 with nextRead := next })).manifestComplete c m.region
      else s.setCtx c (some x1)

/-- The region whose payload a context is for: the region that owns it, or the candidate its pair has selected (R63). -/
def State.payloadOf (s : State) (x : Ctx) : Option Nat :=
  match x.owner with
  | .region i => some i
  | .pair j => (s.pair j).bind Pair.selected

/-- Region `i` is HASHING and shows context `c`. -/
def State.hashesIn (s : State) (c : Fin 4) (i : Nat) : Bool :=
  (s.rt i).any fun r => r.state == .hashing && r.context == some c

/-- The region a context hashes: that of its payload, while it is HASHING and shows the context (R63). -/
def State.hashing (s : State) (c : Fin 4) : Option Nat :=
  match s.ctx c with
  | none => none
  | some x => if x.phase = .payload then (s.payloadOf x).filter (s.hashesIn c) else none

/-- Digest completion of region `i` in context `c` (R71, R41): the entry joins the signature list, the region moves to SIGNING, the
context is released unless the pair has a waiting candidate. -/
def State.completeDigest (s : State) (c : Fin 4) (i : Nat) : State :=
  match s.ctx c, s.rt i with
  | some x, some r =>
    let entry : SigEntry :=
      { region := i, digest := (x.digest.getD Digest.begin).finish, signature := signatureOf (x.manifest i)
        keySlot := (r.recorded.map Recorded.keySlot).getD 0, runTag := r.runTag }
    let s1 := { (s.modRt i fun r => { r with state := .signing, context := none }) with sigList := s.sigList ++ [entry] }
    match x.owner with
    | .region _ => s1.releaseCtx c
    | .pair j =>
      if ((s.pair j).bind s.waiting).isSome then s1.setCtx c (some { x with digest := none, wanted := 0 })
      else s1.releaseCtx c
  | _, _ => s

/-- A payload byte enters the digest of context `c`, which hashes region `i` (R66, R69); `seen` for observation. The last byte brings
digest completion (R71). -/
def State.absorb (s : State) (c : Fin 4) (i : Nat) (b : Byte) (seen : Bool) : State :=
  match s.ctx c, s.rt i with
  | some x, some r =>
    let len := (r.recorded.map Recorded.signedLength).getD 0
    let progress := r.progress + 1
    let s1 :=
      (s.setCtx c
        (some
          { x with
            digest := x.digest.map (·.absorb b), nextRead := s.base i + 256 + progress, wanted := len - progress })).modRt i
        fun r => { r with progress, observed := r.observed || seen }
    if progress = len then s1.completeDigest c i else s1
  | _, _ => s

/-- A context needs bytes (R61, R63). -/
def State.needsBytes (s : State) (c : Fin 4) : Bool :=
  (s.ctx c).any fun x => decide (0 < x.wanted) && (x.phase == .header || (s.hashing c).isSome)

/-! ## Accepted writes (R43, R51) -/

/-- A written waiting candidate of pair `j` leaves the order and its manifest the header store; the context goes if the first candidate
is already SIGNING (R51). -/
def State.dropWaiting (s : State) (j : Nat) (slot : Slot) (i : Nat) : State :=
  match s.pair j with
  | none => s
  | some p =>
    let s1 := s.modPair j fun p => { p with order := p.order.filter (· != slot) }
    let s2 :=
      match s1.ctxOf (.pair j) with
      | some c =>
        s1.setCtx c ((s1.ctx c).map fun x => { x with store := x.store.filter fun m => m.region != i })
      | none => s1
    if (p.selected.bind s.rstate) = some .signing then s2.releaseOwner (.pair j) else s2

/-- What an accepted write does to a HEADER or HASHING region `i` (R43, R49, R51). -/
def State.staleInProgress (s : State) (i : Nat) : State :=
  let s1 := s.modRt i Runtime.markStale
  match s.pairOf i with
  | none => s1.releaseOwner (.region i)
  | some j =>
    match s.pair j with
    | none => s1
    | some p =>
      match p.state with
      | .selected | .failed => s1.releaseOwner (.region i)
      | .selecting => s1
      | .tryingFirst | .tryingSecond =>
        if p.isSelection i then s1.candidateRejected j
        else
          match p.slotOf i with
          | some slot => s1.dropWaiting j slot i
          | none => s1

/-- STALE marking of region `i` by an accepted write that touches it (R43). -/
def State.staleRegion (s : State) (i : Nat) : State :=
  match s.rstate i with
  | none | some .unchecked | some .queued | some .stale => s
  | some .header | some .hashing => s.staleInProgress i
  | some .signing =>
    let s1 := (s.modRt i Runtime.markStale).withdraw i
    match s.candidateOf i with
    | some j => s1.candidateRejected j
    | none => s1
  | some .verified | some .rejected => s.modRt i Runtime.markStale

/-- An accepted, effective write of a range: each touched region in table order (R43, R122). -/
def State.staleRange (s : State) (range : Nat × Nat) : State :=
  (s.touchedRegions range).foldl State.staleRegion s

/-! ## Check results (R42) -/

/-- A check result reaches the run logic (R42): it is applied if its run tag is the current run number and the region is SIGNING. -/
def State.applyResult (s : State) (e : SigEntry) (passed : Bool) : State :=
  if e.runTag = s.runNumber ∧ s.rstate e.region = some .signing then
    let s1 :=
      s.modRt e.region fun r => if passed then { r with state := .verified, reason := none } else r.reject .signature
    match s.candidateOf e.region with
    | some j => if passed then s1.candidateVerified j else s1.candidateRejected j
    | none => s1
  else s

/-! ## Deadline expiry (R53) -/

/-- An attempt in progress: QUEUED, HEADER, HASHING or SIGNING. -/
def RState.inProgress : RState → Bool
  | .queued | .header | .hashing | .signing => true
  | .unchecked | .verified | .rejected | .stale => false

/-- The unfinished REQUIRED pairs (R53). -/
def State.overduePairs (s : State) : List Nat :=
  (s.pairs.zipIdx.filter fun (p, _) => p.unfinished && s.pairRole p == some .required).map (·.2)

/-- Region `i`, of record `r`, is unfinished REQUIRED work: unpaired, or a slot of an unfinished REQUIRED pair (R53). -/
def State.overdue (s : State) (i : Nat) (r : Region) : Bool :=
  r.role == some .required && (s.rstate i).any RState.inProgress
    && (match s.pairOf i with
        | none => true
        | some j => s.overduePairs.contains j)

/-- The regions deadline expiry rejects (R53). -/
def State.overdueRegions (s : State) : List Nat :=
  (s.regions.zipIdx.filter fun (r, i) => s.overdue i r).map (·.2)

/-- Deadline expiry rejects region `i` (R53): reason DEADLINE, its entry withdrawn, its context released. -/
def State.rejectOverdue (s : State) (i : Nat) : State :=
  ((s.releaseOwner (.region i)).modRt i (Runtime.reject .deadline)).withdraw i

/-- The rejections of deadline expiry (R53). -/
def State.expire (s : State) : State :=
  let regions := s.overdueRegions
  let pairs := s.overduePairs
  let s1 :=
    { s with
      deadline := none
      queue := s.queue.filter fun
        | .region i => !regions.contains i
        | .pair j => !pairs.contains j }
  pairs.foldl State.failPair (regions.foldl State.rejectOverdue s1)

end Sys2Proof.Machine
end

