-- ==== Sys2Proof/Machine/FlashPort.lean ====
section
/-! DEFINITION. Chapter 8: demands, the arbiter and the issuing of the part's own instructions, the shadow's updates. -/

namespace Sys2Proof.Machine

/-! ## Demands (R129, R133) -/

/-- The verifier is idle: the queue is empty and no context is held (R133). -/
def State.verifierIdle (s : State) : Bool := s.queue.isEmpty && (List.finRange 4).all fun c => (s.ctx c).isNone

/-- The reading demand: some context needs bytes (R129). -/
def State.readingDemand (s : State) : Bool := (List.finRange 4).any s.needsBytes

/-- The write-disable demand (R129). -/
def State.wdDemand (s : State) : Bool := s.fp.shadow.wdPending

/-- The sleep demand (R129). -/
def State.sleepDemand (s : State) : Bool := s.fp.shadow.sleepPending && s.verifierIdle && !s.fp.shadow.wdPending

/-- Some demand stands (R129). -/
def State.demand (s : State) : Bool := s.readingDemand || s.wdDemand || s.sleepDemand

/-- The flash is ready: power AWAKE and busy IDLE (R129). -/
def Shadow.ready (sh : Shadow) : Bool := sh.power == .awake && sh.busy == .idle

/-! ## Issuing an own instruction (R64, R65, R107, R135, R136) -/

/-- The class table entry of an instruction byte (R95). -/
def State.entry (s : State) (b : Byte) : ClassEntry := tableEntry s.cfg.table b

/-- The flash port issues an own instruction: the flash is OWN, its select is asserted, the instruction byte and the address bytes are
sent in the shape of the byte's class table entry (R107, R136). -/
def FlashPort.issue (f : FlashPort) (op : OwnOp) (b : Byte) (address : List Byte) (shape : ClassEntry) : FlashPort :=
  { f with holder := .own op, select := true, sent := b :: address, shape := some shape }

/-- An own instruction without an address is issued. -/
def State.issuePlain (s : State) (op : OwnOp) (b : Byte) : State :=
  { s with fp := s.fp.issue op b [] (s.entry b) }

/-- The burst size, 256 × 2^b bytes (R65). -/
def State.burstSize (s : State) : Nat := 256 * 2 ^ s.cfg.burstExp

/-- The length of the next burst of a context (R65). -/
def State.burstLength (s : State) (x : Ctx) : Nat :=
  match x.phase with
  | .payload => min s.burstSize x.wanted
  | .header => min s.burstSize (80 - (x.gathering.map fun m => m.bytes.length).getD 80)

/-- The context the round robin chooses: the first that needs bytes after the one last served (R64). -/
def State.nextServed (s : State) : Option (Fin 4) :=
  [s.fp.lastServed + 1, s.fp.lastServed + 2, s.fp.lastServed + 3, s.fp.lastServed].find? s.needsBytes

/-- A burst is issued for context `c` with record `x` (R64, R65, R136). -/
def State.issueBurst (s : State) (c : Fin 4) (x : Ctx) : State :=
  let e := s.entry s.cfg.verifierRead
  { s with
    fp :=
      { s.fp.issue (.burst c (s.burstLength x)) s.cfg.verifierRead (beBytes e.addrBytes x.nextRead) e with lastServed := c } }

/-- The own instruction that is due, and its issue, in the arbiter's order (R135); the state as it stands when none is due. -/
def State.issueDue (s : State) : State :=
  let sh := s.fp.shadow
  if s.wdDemand && sh.ready then s.issuePlain .writeDisable s.cfg.writeDisable
  else if s.demand && sh.power != .awake && s.fp.wakeWait.isNone then
    s.issuePlain (.wake (sh.power == .asleep)) s.cfg.wake
  else if s.demand && sh.power == .awake && sh.busy != .idle && s.fp.pollWait.isNone then
    s.issuePlain .poll s.cfg.statusRead
  else if s.readingDemand && sh.ready then
    match s.nextServed with
    | some c =>
      match s.ctx c with
      | some x => s.issueBurst c x
      | none => s
    | none => s
  else if s.sleepDemand && sh.ready then s.issuePlain .sleep s.cfg.sleep
  else s

/-- The arbiter (R135): on a FREE flash, in a running permit state (R137), the due own instruction is issued. -/
def State.arbitrate (s : State) : State :=
  if s.fp.holder = .free ∧ s.permit.running then s.issueDue else s

/-- The flash becomes FREE and the arbiter chooses again (R134, R135). -/
def State.freeFlash (s : State) : State := { s with fp := s.fp.toFree }

/-! ## Shadow updates (R127, R128, R131) -/

/-- A status byte read from the flash sets busy and write-enable from the configured bits (R127, R128); one that shows IDLE stops the
poll wait (R131). -/
def State.readStatus (s : State) (b : Byte) : State :=
  let busy := b.getLsbD s.cfg.busyBit.1
  { s with
    fp :=
      { s.fp with
        shadow :=
          { s.fp.shadow with
            busy := if busy then .busy else .idle
            writeEnable := if b.getLsbD s.cfg.latchBit.1 then .set else .clear }
        pollWait := if busy then s.fp.pollWait else none } }

/-- The status snoop (R127): taken only while the shadow shows power AWAKE. -/
def State.snoop (s : State) (b : Byte) : State :=
  if s.fp.shadow.power = .awake then s.readStatus b else s

end Sys2Proof.Machine
end

