-- ==== Sys2Proof/Machine/Permit.lean ====
section
/-! DEFINITION. Chapter 10: the permit and denial conditions, the run end, the recovery swap, the sideband outputs; and what every event
of the run logic ends with (`State.settle`), and the run start (R36). -/

namespace Sys2Proof.Machine

/-! ## The permit state (R153) -/

/-- The unpaired regions of a role satisfy a test. -/
def State.unpairedAll (s : State) (test : Nat → Region → Bool) : Bool :=
  s.regions.zipIdx.all fun (r, i) => (s.pairOf i).isSome || test i r

/-- Region `i` is VERIFIED. -/
def State.isVerified (s : State) (i : Nat) : Bool := s.rstate i == some .verified

/-- The pair's selection names a VERIFIED slot. -/
def State.selectionVerified (s : State) (p : Pair) : Bool := p.selected.any s.isVerified

/-- The permit condition (R153). -/
def State.permitCondition (s : State) : Bool :=
  (s.unpairedAll fun i r => r.role != some .required || s.isVerified i)
    && s.pairs.all fun p => s.pairRole p != some .required || (p.state == .selected && s.selectionVerified p)

/-- The denial condition (R153). -/
def State.denialCondition (s : State) : Bool :=
  !(s.unpairedAll fun i r =>
      r.role != some .required || !(s.rstate i == some .rejected || s.rstate i == some .stale))
    || s.pairs.any fun p =>
      s.pairRole p == some .required && (p.state == .failed || (p.state == .selected && !s.selectionVerified p))

/-- The run's duration in whole milliseconds, 65535 for more (R54). -/
def State.runDuration (s : State) : Nat := min 65535 (s.runElapsed / 1000)

/-- Run end (R54): the deadline timer stops, the duration is recorded, RESULT_UNREAD is set, and the permit state is the one reached;
DENIED joins the alert causes on entry to DENIED (R161). -/
def State.endRun (s : State) (p : PermitState) : State :=
  { s with
    permit := p, deadline := none
    report := s.report.map fun r => { r with duration := some s.runDuration }
    alerts := { s.alerts with resultUnread := true, denied := s.alerts.denied || p == .denied } }

/-- The permit decision (R153), made in VERIFYING only (R154). -/
def State.decidePermit (s : State) : State :=
  if s.permit = .verifying then
    if s.permitCondition then s.endRun .permitted
    else if s.denialCondition then s.endRun .denied
    else s
  else s

/-- The recovery swap is asked for in DENIED once the recovery region is VERIFIED (R159). -/
def State.decideRecovery (s : State) : State :=
  if s.permit = .denied ∧ s.recoverySwap = false ∧ s.recoveryRegion.any s.isVerified then s.installRecovery else s

/-! ## The outputs (R155 to R157, R161, R162, R180) -/

/-- The configured gate or the escalation makes a pair a held image (R156). -/
def State.pairHeld (s : State) (p : Pair) : Bool := p.escalated || s.pairGate p == some .hold

/-- REQUIRED or OPTIONAL (R156). -/
def mayHold (r : Option Role) : Bool := r == some .required || r == some .optional

/-- Every held image has passed (R156). -/
def State.heldPassed (s : State) : Bool :=
  (s.unpairedAll fun i r => !(mayHold r.role && r.gate == .hold) || s.isVerified i)
    && s.pairs.all fun p => !(mayHold (s.pairRole p) && s.pairHeld p) || s.selectionVerified p

/-- The hold condition of the permit state (R156). -/
def State.holdCondition (s : State) : Bool :=
  match s.permit with
  | .loading | .provisioning | .provisioned | .fault => true
  | .unprovisioned | .permitted => false
  | .verifying => !s.heldPassed
  | .denied => !s.recoverySwap

/-- The hold pulse runs (R157). -/
def Pulse.isRunning : Pulse → Bool
  | .stopped => false
  | .startup | .running _ => true

/-- The hold pulse after an event: started with the full pulse when CTRL_HOLD_N moves from released to asserted (R157). -/
def State.nextPulse (s : State) : Pulse :=
  if s.holdCondition && !s.pins.ctrlHold then .running (1000 * s.cfg.holdPulse) else s.pulse

/-- Some alert cause is in the set (R161). -/
def Alerts.any (a : Alerts) : Bool := a.resultUnread || a.violation || a.denied || a.fault

/-- The outputs follow the records (Chapter 10): CTRL_HOLD_N with its pulse (R156, R157), PRINT_PERMIT (R155), ALERT_N (R162),
FL_WP_N (R180). -/
def State.drive (s : State) : State :=
  { s with
    pulse := s.nextPulse
    pins :=
      { ctrlHold := s.holdCondition || s.nextPulse.isRunning
        printPermit := s.permit == .permitted
        alert := s.cfg.alertEnable && s.alerts.any
        protect := s.permit != .unprovisioned } }

/-- What an event that changed a record of the verifier ends with: grants (R60), the signature unit's next check (R74), the permit
decision and run end (R153, R54), the recovery swap (R159), the outputs. -/
def State.settle (s : State) : State := s.grants.takeCheck.decidePermit.decideRecovery.drive

/-! ## The run start (R35 to R37) -/

/-- The next run number (R35). -/
def nextRun (n : BitVec 16) : BitVec 16 := if n = 65535 then 1 else n + 1

/-- The verify queue of a run start before it is sorted by priority: the unpaired verifiable regions, and each pair at the place of its
lower slot (R37). -/
def State.queueEntries (s : State) : List (Owner × Fin 4) :=
  s.regions.zipIdx.filterMap fun (r, i) =>
    match s.pairOf i with
    | none => if r.verifiable then some (.region i, r.priority.getD 0) else none
    | some j =>
      if (s.pair j).any fun p => min p.home p.alternate == i then some (.pair j, r.priority.getD 0) else none

/-- The verify queue of a run start (R37): higher priority first, table order within a priority. -/
def State.runQueue (s : State) : List Owner :=
  ([3, 2, 1, 0] : List (Fin 4)).flatMap fun pr => (s.queueEntries.filter fun e => e.2 == pr).map (·.1)

/-- A pair record at a run start (R7). -/
def Pair.afresh (p : Pair) : Pair := { p with selection := .none, state := .selecting, order := [], escalated := false }

/-- A check in flight is withdrawn (R36, R77). -/
def SigUnit.withdrawn : SigUnit → SigUnit
  | .idle => .idle
  | .checking e _ key t => .checking e true key t

/-- The flash port when every context is released: a burst in progress ends (R68, R137). -/
def FlashPort.endBurst (f : FlashPort) : FlashPort :=
  match f.holder with
  | .own (.burst _ _) => f.toFree
  | _ => f

/-- The records of a run start (R36), before the grants and the decisions that follow in the same event. -/
def State.newRun (s : State) (cause : StartCause) : State :=
  let n := nextRun s.runNumber
  { s with
    runNumber := n
    runtime := s.regions.map fun r => if r.verifiable then some (Runtime.fresh n .queued) else none
    pairs := s.pairs.map Pair.afresh
    queue := s.runQueue
    contexts := Vector.replicate 4 none
    sigList := [], sigUnit := s.sigUnit.withdrawn
    trans := [], recoverySwap := false
    deadline := if s.cfg.deadline = 0 then none else some (100000 * s.cfg.deadline)
    runElapsed := 0
    permit := .verifying
    alerts := { s.alerts with denied := false }
    report := some ⟨n, cause, none, ⟨0, 0, 0, 0⟩⟩
    fp := s.fp.endBurst }

/-- The run start event (R36). The outputs follow the entry to VERIFYING, which asserts CTRL_HOLD_N and starts a pulse for a held image
(R157), before the grants and decisions of the same event, which may lead on to PERMITTED (R153). -/
def State.runStart (s : State) (cause : StartCause) : State := (s.newRun cause).drive.settle

end Sys2Proof.Machine
end

