-- ==== Sys2Proof/Machine/Time.lean ====
section
/-! DEFINITION. Time on the reference clock, in whole microseconds (R140): the timers of the part, and the commands that are due when
they have run out. DESIGN CHOICE, logs 2 to 4. -/

namespace Sys2Proof.Machine

/-- A timer that may be stopped loses `d` µs, to 0 at least. -/
def lapse (d : Nat) (t : Option Nat) : Option Nat := t.map (· - d)

/-- The signature unit after `d` µs. -/
def SigUnit.lapse (d : Nat) : SigUnit → SigUnit
  | .idle => .idle
  | .checking e w key t => .checking e w key (t - d)

/-- The provisioning burn after `d` µs. -/
def Provisioning.lapse (d : Nat) : Provisioning → Provisioning
  | .burning want c t => .burning want c (t - d)
  | p => p

/-- The hold pulse timer after `d` µs. -/
def Pulse.lapse (d : Nat) : Pulse → Pulse
  | .running t => .running (t - d)
  | p => p

/-- `d` µs pass: every running timer loses them, and the clocks since the reset and since the run start gain them. -/
def State.elapse (s : State) (d : Nat) : State :=
  { s with
    sinceReset := s.sinceReset + d
    runElapsed := s.runElapsed + d
    deadline := Sys2Proof.Machine.lapse d s.deadline
    pulse := s.pulse.lapse d
    sigUnit := s.sigUnit.lapse d
    prov := s.prov.lapse d
    keys := { s.keys with burn := s.keys.burn.map fun b => { b with remaining := b.remaining - d } }
    fp := { s.fp with wakeWait := Sys2Proof.Machine.lapse d s.fp.wakeWait, pollWait := Sys2Proof.Machine.lapse d s.fp.pollWait } }

/-- The commands due: the events of the timers that have run out. -/
def State.due (s : State) : List Instr :=
  (match s.sigUnit with | .checking _ _ _ 0 => [.signatureCheckComplete] | _ => [])
    ++ (if s.deadline = some 0 then [.deadlineExpiry] else [])
    ++ (match s.pulse with | .running 0 => [.holdPulseExpiry] | _ => [])
    ++ (if s.fp.wakeWait = some 0 then [.wakeWaitEnd] else [])
    ++ (if s.fp.pollWait = some 0 then [.pollWaitEnd] else [])
    ++ (match s.keys.burn with
        | some ⟨.floor _ _, 0⟩ => [.floorCellComplete]
        | some ⟨.revoke _, 0⟩ => [.revokeCellComplete]
        | _ => [])
    ++ (match s.prov with | .burning _ _ 0 => [.provisionCellBurnComplete] | _ => [])

/-- The list in the order a number picks among all its orders. -/
def inOrder (n : Nat) : List Instr → List Instr
  | [] => []
  | [c] => [c]
  | c :: cs => (inOrder (n / (cs.length + 1)) cs).insertIdx (n % (cs.length + 1)) c

/-- One microsecond passes and the events then due join the queue, in an order that is a free value (log 4). -/
def State.tick (s : State) : State :=
  let s1 := s.elapse 1
  { s1 with pending := inOrder (Config.raceOrder s1.sinceReset) s1.due }

end Sys2Proof.Machine
end

