-- ==== Sys2Proof/Machine/Service.lean ====
section
/-! DEFINITION. Chapter 11 with the judgements it calls (R56 to R58, R144 to R149): what the service handler does with a request it takes,
and the response it places. -/

namespace Sys2Proof.Machine

/-! ## Requests (R163) -/

/-- A request the service handler takes; FETCH is not one of them (R164). -/
inductive Request where
  | report | peek | restart
  | detail (index : Byte)
  | verify (index : Byte)
  | raiseFloor (kind : Byte)
  | revoke (slot : Byte)
  | unknown (code : Byte)
deriving DecidableEq, Repr

/-- The code of FETCH (R163). -/
def fetchCode : Byte := 0x0A

/-- The request code carries an argument byte (R163). -/
def carriesArgument (code : Byte) : Bool := code == 0x03 || code == 0x04 || code == 0x06 || code == 0x07

/-- The request that a transaction's service bytes carry whole (R106, R163): none while its bytes are incomplete, and none for FETCH,
which hands nothing on. -/
def requestOf : List Byte → Option Request
  | [code] =>
    if code = 0x01 then some .report else if code = 0x02 then some .peek else if code = 0x05 then some .restart
    else if carriesArgument code || code == fetchCode then none else some (.unknown code)
  | [code, arg] =>
    if code = 0x03 then some (.detail arg) else if code = 0x04 then some (.verify arg)
    else if code = 0x06 then some (.raiseFloor arg) else if code = 0x07 then some (.revoke arg) else none
  | _ => none

/-- The status codes of a response (R172), in their order 0 to 7. -/
inductive Status where
  | done | started | already | unchanged | refusedState | refusedArgument | refusedLastKey | storeBusy
deriving DecidableEq, Repr

def Status.code : Status → Byte
  | .done => 0 | .started => 1 | .already => 2 | .unchanged => 3 | .refusedState => 4 | .refusedArgument => 5
  | .refusedLastKey => 6 | .storeBusy => 7

/-! ## Codes of the response data (R172) -/

def RState.code : RState → Byte
  | .unchecked => 0 | .queued => 1 | .header => 2 | .hashing => 3 | .signing => 4 | .verified => 5 | .rejected => 6 | .stale => 7

def Reason.code : Reason → Byte
  | .blank => 1 | .format => 2 | .kind => 3 | .key => 4 | .epoch => 5 | .length => 6 | .signature => 7 | .deadline => 8

def PairState.code : PairState → Byte
  | .selecting => 0 | .tryingFirst => 1 | .tryingSecond => 2 | .selected => 3 | .failed => 4

def Selection.code : Selection → Byte
  | .none => 0 | .home => 1 | .alternate => 2

def StartCause.code : StartCause → Byte
  | .power => 0 | .pin => 1 | .restart => 2

/-- The permit state in a report; only the three running states occur (R172). -/
def PermitState.code : PermitState → Byte
  | .verifying => 0 | .permitted => 1 | .denied => 2
  | .loading | .unprovisioned | .provisioning | .provisioned | .fault => 0xFF

/-- The class of a last refusal (R172); no other class is refused. -/
def TxClass.refusalCode : TxClass → Byte
  | .program => 1 | .eraseSector => 2 | .eraseBlock => 3 | .eraseChip => 4 | .statusWrite => 5 | .barred => 6
  | .read | .writeEnable | .writeDisable | .statusRead | .sleep | .wake | .resume | .plain | .service => 0

def RefusalCause.code : RefusalCause → Byte
  | .policy => 1 | .range => 2 | .barred => 3

def KeyState.code : KeyState → Byte
  | .empty => 0 | .active => 1 | .revoked => 2

/-- One bit of a flags byte. -/
def flagBit (n : Nat) (b : Bool) : Byte := if b then 1#8 <<< n else 0

/-- A byte value. -/
def natByte (n : Nat) : Byte := BitVec.ofNat 8 n

/-- A byte that reads FFh when absent. -/
def byteOrFF (x : Option Nat) : Byte := (x.map natByte).getD 0xFF

/-! ## The run report and region detail (R172) -/

/-- The pair of region `i`, if it is a slot of one. -/
def State.pairRecordOf (s : State) (i : Nat) : Option Pair := (s.pairOf i).bind s.pair

/-- The report's 3-byte entry of region `i` with runtime record `r`. It has no place for the recorded sequence, which R30 says the run
report reads: R160 and R172 are followed, and the sequence is shown in the region detail only (DEDUCED, log 34). -/
def State.reportEntry (s : State) (i : Nat) (r : Runtime) : List Byte :=
  let p := s.pairRecordOf i
  [ natByte (i % 16) ||| flagBit 4 r.observed ||| flagBit 5 (p.any (·.isSelection i)) ||| flagBit 6 (p.any (·.escalated))
      ||| flagBit 7 p.isSome
  , r.state.code ||| ((r.reason.map Reason.code).getD 0 <<< 4)
  , byteOrFF (r.recorded.map Recorded.epoch) ]

/-- The burn state and burn subject bytes of the report. -/
def burnBytes : Option Burn → List Byte
  | none => [0, 0xFF]
  | some ⟨.floor k _, _⟩ => [1, natByte k.1]
  | some ⟨.revoke s, _⟩ => [2, natByte s.1]

/-- The last-refusal bytes of the report: class, cause, logical address. -/
def refusalBytes : Option LastRefusal → List Byte
  | none => [0, 0] ++ leBytes 4 0xFFFFFFFF
  | some r => [r.cls.refusalCode, r.cause.code] ++ leBytes 4 (r.address.getD 0xFFFFFFFF)

/-- The run report data (R160, R172): the fixed part of 20 bytes and the entries in ascending region index. -/
def State.reportData (s : State) : List Byte :=
  let r := s.report.getD ⟨s.runNumber, s.resetCause, none, ⟨0, 0, 0, 0⟩⟩
  leBytes 2 r.runNumber.toNat ++ [r.cause.code, s.permit.code, flagBit 0 r.duration.isSome]
    ++ leBytes 2 (r.duration.getD 0)
    ++ [natByte r.tally.range, natByte r.tally.crossing, natByte r.tally.tail, natByte r.tally.gate]
    ++ [natByte s.violation.count] ++ refusalBytes s.violation.last ++ burnBytes s.keys.burn
    ++ s.runtime.zipIdx.flatMap fun (t, i) => match t with | some t => s.reportEntry i t | none => []

/-- The candidate order in region indices, FFh for each place not filled (R172). -/
def orderBytes (p : Pair) : List Byte :=
  [byteOrFF ((p.order[0]?).map p.region), byteOrFF ((p.order[1]?).map p.region)]

/-- The detail data of region `i` with runtime record `r` (R166, R172). Byte 2 takes six bits, the four recorded fields sharing one; its
bits 6 and 7, and home and pair escalated of an unpaired region, read 0 (DESIGN CHOICE, log 37). -/
def State.detailData (s : State) (i : Nat) (r : Runtime) : List Byte :=
  let p := s.pairRecordOf i
  [ r.state.code
  , (r.reason.map Reason.code).getD 0
  , flagBit 0 r.recorded.isSome ||| flagBit 1 r.context.isSome ||| flagBit 2 r.observed ||| flagBit 3 p.isSome
      ||| flagBit 4 (p.any fun p => p.home == i) ||| flagBit 5 (p.any (·.escalated)) ]
    ++ leBytes 4 ((r.recorded.map Recorded.signedLength).getD 0)
    ++ [byteOrFF (r.recorded.map Recorded.epoch), byteOrFF (r.recorded.map fun m => m.keySlot.1)]
    ++ leBytes 4 ((r.recorded.map Recorded.sequence).getD 0)
    ++ leBytes 4 r.progress
    ++ [byteOrFF (r.context.map Fin.val)]
    ++ leBytes 2 r.runTag.toNat
    ++ (match p with
        | some p => [p.state.code, p.selection.code, natByte p.order.length] ++ orderBytes p
        | none => [0xFF, 0xFF, 0, 0xFF, 0xFF])

/-! ## The response buffer (R170) -/

/-- A response is placed in the buffer, with the previous-response-discarded flag (R170, R172). -/
def State.place (s : State) (code arg : Byte) (status : Status) (data : List Byte) : State :=
  { s with
    response :=
      some
        { body := [code, arg, status.code, flagBit 0 (s.response.any fun r => !r.fetched)] ++ data
          fetched := false } }

/-! ## VERIFY (R56 to R58) -/

/-- The region index names a verifiable region: its record (R56 row 1, R166). -/
def State.verifiableAt (s : State) (index : Byte) : Option Region :=
  if index.toNat ≤ 15 then (s.region index.toNat).filter Region.verifiable else none

/-- Region `i` with record `r` is an allowed target of VERIFY, its state being none of those in progress (R57). -/
def State.allowedTarget (s : State) (i : Nat) (r : Region) : Bool :=
  match s.pairRecordOf i with
  | some p => (p.state == .selected && !p.isSelection i) || p.state == .failed
  | none =>
    match r.role with
    | some .optional => true
    | some .required => s.permit == .denied && (s.rstate i == some .rejected || s.rstate i == some .stale)
    | some .recovery | none => false

/-- The attempt on region `i` is in progress (R56 row 2): by its own state, or as a slot of a pair that is SELECTING, whatever state the
slot itself has reached. DEDUCED, log 36. -/
def State.attemptInProgress (s : State) (i : Nat) : Bool :=
  (s.rstate i).any RState.inProgress || (s.pairRecordOf i).any fun p => p.state == .selecting

/-- The judgement of a VERIFY request (R56). -/
def State.judgeVerify (s : State) (index : Byte) : Status :=
  match s.verifiableAt index with
  | none => .refusedArgument
  | some r =>
    if s.attemptInProgress index.toNat then .already
    else if s.allowedTarget index.toNat r then .started
    else .refusedState

/-- A new attempt on region `i` joins the queue's tail (R58). -/
def State.newAttempt (s : State) (i : Nat) : State :=
  { (s.modRt i fun _ => Runtime.fresh s.runNumber .queued) with queue := s.queue ++ [.region i] }

/-- The data byte of a VERIFY response: the region's state, FFh for no verifiable region (R167). -/
def State.stateByte (s : State) (index : Byte) : Byte :=
  if (s.verifiableAt index).isSome then ((s.rstate index.toNat).map RState.code).getD 0xFF else 0xFF

/-! ## RAISE_FLOOR (R144, R145) -/

/-- The images the printer is running (R145): the VERIFIED unpaired REQUIRED regions and the VERIFIED selected slots of REQUIRED
pairs, with their records. -/
def State.runningImages (s : State) : List (Region × Recorded) :=
  s.regions.zipIdx.filterMap fun (r, i) =>
    if r.role == some .required && s.isVerified i
        && (match s.pairRecordOf i with | some p => p.isSelection i | none => true) then
      ((s.rt i).bind Runtime.recorded).map fun m => (r, m)
    else none

/-- The smallest of a list of numbers, if there is one. -/
def least : List Nat → Option Nat
  | [] => none
  | n :: ns => some (ns.foldl min n)

/-- The target of a RAISE_FLOOR request for kind `k` (R145). -/
def State.floorTarget (s : State) (k : Fin 8) : Option Nat :=
  least ((s.runningImages.filter fun (r, _) => r.kind == some k).map fun (_, m) => m.epoch)

/-- The kind a byte names (R144 row 2). -/
def kindOf (b : Byte) : Option (Fin 8) := if h : b.toNat < 8 then some ⟨b.toNat, h⟩ else none

/-- The judgement of a RAISE_FLOOR request (R144): status and target where one was computed. -/
def State.judgeRaise (s : State) (kind : Byte) : Status × Option Nat :=
  if s.permit ≠ .permitted then (.refusedState, none)
  else
    match kindOf kind with
    | none => (.refusedArgument, none)
    | some k =>
      match s.floorTarget k with
      | none => (.refusedArgument, none)
      | some t =>
        if s.keys.burn.isSome then (.storeBusy, some t)
        else if t ≤ s.keys.floors[k] then (.unchanged, some t)
        else (.started, some t)

/-- The key store begins a burn job (R143): its first cell takes 0.5 ms. -/
def State.startBurn (s : State) (job : BurnJob) : State := { s with keys := { s.keys with burn := some ⟨job, 500⟩ } }

/-! ## REVOKE (R147, R148) -/

/-- The slot a byte names (R147 row 2). -/
def slotOfByte (b : Byte) : Option (Fin 4) := if h : b.toNat < 4 then some ⟨b.toNat, h⟩ else none

/-- Some ACTIVE slot other than `slot` allows kind `k` (R148). -/
def State.otherSlotAllows (s : State) (slot : Fin 4) (k : Fin 8) : Bool :=
  (List.finRange 4).any fun t => t != slot && s.keys.slots[t].state == .active && s.keys.slots[t].allowed.getLsbD k.1

/-- Revoking `slot` would strand a required image (R148). -/
def State.strands (s : State) (slot : Fin 4) : Bool :=
  (s.runningImages.any fun (_, m) => m.keySlot == slot)
    || s.regions.any fun r => r.role == some .required && r.kind.any fun k => !s.otherSlotAllows slot k

/-- The judgement of a REVOKE request (R147). -/
def State.judgeRevoke (s : State) (slot : Byte) : Status :=
  if s.permit ≠ .permitted then .refusedState
  else
    match slotOfByte slot with
    | none => .refusedArgument
    | some k =>
      match s.keys.slots[k].state with
      | .empty => .refusedArgument
      | .revoked => .unchanged
      | .active =>
        if s.keys.burn.isSome then .storeBusy
        else if s.strands k then .refusedLastKey
        else .started

/-! ## Taking a request (R164 to R169): each judges, makes its changes, and places its response, in one event -/

/-- REPORT's clearing (R125, R161, R165). -/
def State.clearReported (s : State) : State :=
  { s with violation := ⟨0, none⟩, alerts := { s.alerts with resultUnread := false, violation := false } }

/-- PEEK (R165). -/
def State.takePeek (s : State) : State := s.place 0x02 0xFF .done s.reportData

/-- REPORT (R165): the response carries the violation record as it stood before the clearing. -/
def State.takeReport (s : State) : State := (s.clearReported.place 0x01 0xFF .done s.reportData).drive

/-- DETAIL (R166). -/
def State.takeDetail (s : State) (index : Byte) : State :=
  match s.verifiableAt index, s.rt index.toNat with
  | some _, some r => s.place 0x03 index .done (s.detailData index.toNat r)
  | _, _ => s.place 0x03 index .refusedArgument []

/-- VERIFY (R167). -/
def State.takeVerify (s : State) (index : Byte) : State :=
  let status := s.judgeVerify index
  let s1 := if status = .started then (s.newAttempt index.toNat).settle else s
  s1.place 0x04 index status [s1.stateByte index]

/-- RESTART (R168): refused in VERIFYING, in PERMITTED and DENIED the run start of R36. -/
def State.takeRestart (s : State) : State :=
  match s.permit with
  | .permitted | .denied =>
    let s1 := s.runStart .restart
    s1.place 0x05 0xFF .started (leBytes 2 s1.runNumber.toNat)
  | .verifying | .loading | .unprovisioned | .provisioning | .provisioned | .fault =>
    s.place 0x05 0xFF .refusedState (leBytes 2 s.runNumber.toNat)

/-- RAISE_FLOOR (R144, R169). -/
def State.takeRaise (s : State) (kind : Byte) : State :=
  let (status, target) := s.judgeRaise kind
  let data := [byteOrFF ((kindOf kind).map fun k => s.keys.floors[k]), byteOrFF target]
  let s1 :=
    match status, kindOf kind, target with
    | .started, some k, some t => s.startBurn (.floor k t)
    | _, _, _ => s
  s1.place 0x06 kind status data

/-- REVOKE (R147, R169). -/
def State.takeRevoke (s : State) (slot : Byte) : State :=
  let status := s.judgeRevoke slot
  let data := [((slotOfByte slot).map fun k => s.keys.slots[k].state.code).getD 0xFF]
  let s1 :=
    match status, slotOfByte slot with
    | .started, some k => s.startBurn (.revoke k)
    | _, _ => s
  s1.place 0x07 slot status data

/-- The service handler takes a request (R164). -/
def State.takeRequest (s : State) : Request → State
  | .report => s.takeReport
  | .peek => s.takePeek
  | .restart => s.takeRestart
  | .detail i => s.takeDetail i
  | .verify i => s.takeVerify i
  | .raiseFloor k => s.takeRaise k
  | .revoke k => s.takeRevoke k
  | .unknown code => s.place code 0xFF .refusedArgument []

/-- The service handler takes the request that service bytes carry, if they carry one whole (R106). -/
def State.takeBytes (s : State) (bytes : List Byte) : State :=
  match requestOf bytes with
  | some r => s.takeRequest r
  | none => s

/-! ## FETCH (R171) -/

/-- Byte `n` that a FETCH drives: the body length, the body, then FFh. -/
def State.fetchByte (s : State) (n : Nat) : Byte :=
  match s.response with
  | none => if n = 0 then 0 else 0xFF
  | some r => if n = 0 then natByte r.body.length else r.body.getD (n - 1) 0xFF

/-- Byte `n` of a FETCH has been driven whole: the last body byte makes the response fetched. -/
def State.fetched (s : State) (n : Nat) : State :=
  { s with response := s.response.map fun r => if n = r.body.length then { r with fetched := true } else r }

end Sys2Proof.Machine
end

