-- ==== Sys2Proof/Machine/Traffic.lean ====
section
/-! DEFINITION. Chapter 6: the upstream port, one event of a transaction at a time; acceptance and what an accepted transaction does; the
service transactions that carry requests. -/

namespace Sys2Proof.Machine

/-- The empty cause set (R86). -/
def Causes.empty : Causes := ⟨false, false, false, false⟩

/-- A transaction record as it is opened (R96). -/
def Tx.opened : Tx :=
  { phase := .instruction, clocks := 0, entry := none, address := none, received := 0, captured := none, range := none
    flashSide := .notStarted, handling := .relay, k := 0, causes := Causes.empty, service := [] }

/-- Writes the transaction record. -/
def State.setTx (s : State) (t : Option Tx) : State := { s with up := { s.up with tx := t } }

/-- Sets FL_CS_N. -/
def State.flashSelect (s : State) (b : Bool) : State := { s with fp := { s.fp with select := b } }

/-- Whole bytes are passed on to the flash (R96). -/
def State.send (s : State) (bs : List Byte) : State := { s with fp := { s.fp with sent := s.fp.sent ++ bs } }

/-- In PASS-THROUGH, while select is asserted, what the controller drives stands on the flash's lines too (R93); in no other mode does it
reach the flash but by the relay. -/
def State.wire (s : State) (bs : List Byte) : State :=
  if s.up.mode = .passThrough ∧ s.up.select = true then s.send bs else s

/-- The controller samples a data byte. -/
def State.answer (s : State) (b : Byte) (o : Origin) : State := { s with up := { s.up with out := some ⟨b, o⟩ } }

/-! ## Select assertion (R96, R134) -/

/-- The relay takes the flash, whatever holds it (R134): an own instruction ends there, a burst is cut (R67). -/
def FlashPort.toRelay (f : FlashPort) : FlashPort := { f with holder := .relay, select := true, sent := [], shape := none }

/-- UPSTREAM_SELECT_ASSERT (R96). -/
def execUpstreamSelectAssert (s : State) : Result :=
  if s.up.select then .next s
  else
    let up := { s.up with select := true, out := none }
    match s.up.mode with
    | .detached => .next { s with up }
    | .passThrough => .next { s with up, fp := { s.fp with select := true, sent := [], shape := none } }
    | .relaying => .next { s with up := { up with tx := some Tx.opened }, fp := s.fp.toRelay }

/-! ## Instruction byte (R97, R103, R104, R105, R115, R116) -/

/-- The phase after the address is complete (R98). -/
def ClassEntry.dataPhase (e : ClassEntry) : TxPhase := if e.dummy = 0 then .data else .dummy

/-- The record once the instruction byte is whole (R97). -/
def Tx.classified (t : Tx) (e : ClassEntry) : Tx :=
  { t with entry := some e, phase := if e.addrBytes = 0 then e.dataPhase else .address }

/-- The flash-side transaction is ended off a byte boundary and the rest of the transaction is discarded (R103, R104, R118). -/
def State.truncate (s : State) (t : Tx) : State :=
  (s.setTx (some { t with handling := .truncated, flashSide := .ended })).flashSelect false

/-- The write filter refuses a write (R118, R119): truncated, recorded, a write-disable pending. -/
def State.refuse (s : State) (t : Tx) (cls : TxClass) (address : Option Nat) (cause : RefusalCause) : State :=
  (((s.truncate t).recordRefusal cls address cause).modShadow fun sh => { sh with wdPending := true }).drive

/-- The instruction byte is relayed (R97). -/
def State.forward (s : State) (t : Tx) (e : ClassEntry) (bs : List Byte) : State :=
  let s1 := (s.setTx (some { t with flashSide := .running })).send bs
  { s1 with fp := { s1.fp with shape := some e } }

/-- The instruction byte `b` of entry `e` is whole, by class (R97). -/
def State.classify (s : State) (t : Tx) (b : Byte) (e : ClassEntry) : State :=
  match e.cls with
  | .service => (s.setTx (some { t with handling := .serviceWait, flashSide := .ended })).flashSelect false
  | .barred => ((s.truncate t).recordRefusal .barred none .barred).drive
  | .sleep => if s.verifierIdle then s.forward t e [b] else s.truncate t
  | .eraseChip =>
    let t1 := { t with range := some (0, s.flashSize) }
    if s.rangeLocked (0, s.flashSize) then s.refuse t1 .eraseChip none .policy else s.forward t1 e [b]
  | .statusWrite => if s.cfg.statusAllow then s.forward t e [b] else s.refuse t .statusWrite none .policy
  | .read | .program | .eraseSector | .eraseBlock | .writeEnable | .writeDisable | .statusRead | .wake | .resume | .plain =>
    s.forward t e [b]

/-- INSTRUCTION_BYTE_COMPLETE (R97); in PASS-THROUGH the byte reaches the flash unclassified (R93). -/
def execInstructionByteComplete (b : Byte) (s : State) : Result :=
  match s.up.tx with
  | some t =>
    if t.phase = .instruction then .next (s.classify (t.classified (s.entry b)) b (s.entry b)) else .next s
  | none => .next (s.wire [b])

/-! ## Address (R98, R114) -/

/-- The record once the address is complete (R98). -/
def Tx.addressed (t : Tx) (e : ClassEntry) (a : BitVec 32) : Tx :=
  { t with address := some (BitVec.ofNat 32 (addressField e.addrBytes a)), received := e.addrBytes, phase := e.dataPhase }

/-- A READ's address is complete (R98): the list is captured, the translated address sent, or the stream runs on RANGE fill (R14). The
flash has then already seen the instruction byte (R96, R97); it sees its select rise here, with no address byte: DESIGN CHOICE, log 32. -/
def State.addressRead (s : State) (t : Tx) (e : ClassEntry) (a : BitVec 32) : State :=
  let p := translate s.trans (s.logical e.addrBytes a)
  let t1 := { t with captured := some s.trans }
  if outOfField e.addrBytes p then
    (s.setTx (some { t1 with handling := .noFlash, flashSide := .absent })).flashSelect false
  else (s.setTx (some t1)).send (beBytes e.addrBytes p)

/-- The address of a PROGRAM, ERASE_SECTOR or ERASE_BLOCK is complete (R98, R114): forwarded, or refused with the last address byte
incomplete on the flash side (R118). Of an address that a 3-byte field cannot hold (R18) the flash has by then the bytes of its bits 23
to 8: DESIGN CHOICE, log 33. A write that follows a flip is judged at the slot to which the new list carries its address (R11, R17), where
R123's last sentence has it refused: DEDUCED, log 39. -/
def State.addressWrite (s : State) (t : Tx) (e : ClassEntry) (a : BitVec 32) : State :=
  let l := s.logical e.addrBytes a
  let p := translate s.trans l
  let range := affectedRange e.cls p s.flashSize
  let t1 := { t with captured := some s.trans, range }
  match s.judgeWrite e.addrBytes p (range.getD (0, 0)) with
  | some cause => (s.send ((beBytes e.addrBytes p).take (e.addrBytes - 1))).refuse t1 e.cls (some l) cause
  | none => (s.setTx (some t1)).send (beBytes e.addrBytes p)

/-- The last address byte is taken whole, by class (R98). -/
def State.address (s : State) (t : Tx) (e : ClassEntry) (a : BitVec 32) : State :=
  match e.cls with
  | .read => s.addressRead t e a
  | .program | .eraseSector | .eraseBlock => s.addressWrite t e a
  | .eraseChip | .writeEnable | .writeDisable | .statusRead | .statusWrite | .sleep | .wake | .resume | .plain | .service
  | .barred => (s.setTx (some t)).send (beBytes e.addrBytes (addressField e.addrBytes a))

/-- ADDRESS_COMPLETE (R98); in PASS-THROUGH the address reaches the flash as four bytes (R93; DESIGN CHOICE, log 19: the part does not
know how many of a transaction's bytes are an address). -/
def execAddressComplete (a : BitVec 32) (s : State) : Result :=
  match s.up.tx with
  | some t =>
    match t.phase, t.entry with
    | .address, some e => .next (s.address (t.addressed e a) e a)
    | _, _ => .next s
  | none => .next (s.wire (beBytes 4 a.toNat))

/-- DUMMY_COUNT_COMPLETE (R99). -/
def execDummyCountComplete (s : State) : Result :=
  match s.up.tx with
  | some t => if t.phase = .dummy then .next (s.setTx (some { t with phase := .data })) else .next s
  | none => .next s

/-! ## Data bytes (R99, R69, R105, R106) -/

/-- The context in which an offered byte at physical address `a` is absorbed, with its region, if every condition of R69 holds. -/
def State.observer (s : State) (a : Nat) : Option (Fin 4 × Nat) :=
  match s.regionAt a with
  | none => none
  | some i =>
    match s.region i, s.rt i with
    | some r, some t =>
      match t.context with
      | some c =>
        if s.effectiveGate i r = .observe ∧ s.hashing c = some i ∧ s.fp.shadow.ready ∧ a = r.base + 256 + t.progress then
          some (c, i)
        else none
      | none => none
    | _, _ => none

/-- A payload byte more completes the digest of region `i` (R71). -/
def State.lastByte (s : State) (i : Nat) : Bool :=
  (s.rt i).any fun t => t.recorded.any fun m => t.progress + 1 == m.signedLength

/-- A byte the gate delivers is offered for absorption (R69). -/
def State.offer (s : State) (a : Nat) (b : Byte) : State :=
  match s.observer a with
  | some (c, i) => if s.lastByte i then (s.absorb c i b true).settle else s.absorb c i b true
  | none => s

/-- A data byte of a relayed READ (R16, R81, R89): decided first, then offered. -/
def State.readByte (s : State) (t : Tx) (e : ClassEntry) (b : Byte) : State :=
  let ws := t.captured.getD []
  let l0 := s.logical e.addrBytes (t.address.getD 0)
  match s.streamByte ws l0 t.k with
  | .flash => ((s.setTx (some { t with k := t.k + 1 })).answer b .flash).offer (wanted ws s.flashSize l0 t.k) b
  | .fill cause => (s.setTx (some { t with k := t.k + 1, causes := t.causes.join cause })).answer 0xFF (.fill cause)

/-- A byte of a service transaction (R105, R106, R171). The tag is byte 0 of the data, the request code byte 1 (log 24). -/
def State.serviceByte (s : State) (t : Tx) (e : ClassEntry) (b : Byte) : State :=
  let t1 := { t with k := t.k + 1 }
  match t.handling with
  | .serviceWait =>
    if b = s.cfg.tag then s.setTx (some { t1 with handling := .consumed })
    else
      let s1 := s.setTx (some { t1 with handling := .relay, flashSide := .running })
      { s1 with fp := { s1.fp with select := true, sent := [s.cfg.serviceByte, b], shape := some e } }
  | .consumed =>
    match t.service with
    | [] => s.setTx (some { t1 with service := [b] })
    | [code] =>
      if code = fetchCode then ((s.setTx (some t1)).answer (s.fetchByte (t.k - 2)) .response).fetched (t.k - 2)
      else if carriesArgument code then s.setTx (some { t1 with service := [code, b] })
      else (s.setTx (some t1)).answer 0xFF .high
    | _ => (s.setTx (some t1)).answer 0xFF .high
  | .relay => ((s.setTx (some t1)).send [b]).answer 0xFF .high
  | .truncated | .noFlash => s.setTx (some t1)

/-- A data byte taken whole in RELAYING mode, by class and handling (R99). -/
def State.dataByte (s : State) (t : Tx) (e : ClassEntry) (b : Byte) : State :=
  let t1 := { t with k := t.k + 1 }
  match e.cls, t.handling with
  | .service, _ => s.serviceByte t e b
  | .barred, _ => (s.setTx (some t1)).answer 0xFF .high
  | _, .truncated => s.setTx (some t1)
  | .read, .noFlash =>
    (s.setTx (some { t1 with causes := t.causes.join .range })).answer 0xFF (.fill .range)
  | .read, _ => s.readByte t e b
  | .statusRead, _ =>
    let s1 := (s.setTx (some t1)).answer b .flash
    if t.k = 0 then s1.snoop b else s1
  | .plain, _ => (s.setTx (some t1)).answer b .flash
  | _, _ => (s.setTx (some t1)).send [b]

/-- UPSTREAM_DATA_BYTE (R99); in DETACHED mode HALTED fill (R80, R93), also for what is left of such a transaction after the load
(DEDUCED, log 35); in PASS-THROUGH the byte stands on both ports' lines (R79, R93; log 19). -/
def execUpstreamDataByte (b : Byte) (s : State) : Result :=
  match s.up.mode with
  | .detached => .next (if s.up.select then s.answer 0xFF (.fill .halted) else s)
  | .passThrough => .next (if s.up.select then (s.wire [b]).answer b .flash else s)
  | .relaying =>
    match s.up.tx with
    | some t =>
      match t.phase, t.entry with
      | .data, some e => .next (s.dataByte t e b)
      | _, _ => .next s
    | none => .next s

/-! ## Select rise (R100 to R102, R86, R106) -/

/-- The rise is at a byte boundary (R100). -/
def Tx.atBoundary (t : Tx) : Bool := t.clocks == 0 && t.phase != .dummy

/-- The first three conditions of acceptance (R101): byte boundary, whole address, for PROGRAM a data byte. -/
def Tx.framed (t : Tx) : Bool :=
  t.atBoundary && t.entry.any fun e => t.received == e.addrBytes && (e.cls != .program || decide (0 < t.k))

/-- The transaction is accepted (R101). -/
def Tx.accepted (t : Tx) : Bool := t.framed && t.handling == .relay

/-- An accepted write (R102): effective unless the shadow's write-enable is CLEAR; then the flash is busy, its write-enable CLEAR, the
pending write-disable cancelled, and the touched regions go STALE (R122). -/
def State.acceptWrite (s : State) (t : Tx) : State :=
  if s.fp.shadow.writeEnable = .clear then s
  else
    let s1 := s.modShadow fun sh => { sh with busy := .busy, writeEnable := .clear, wdPending := false }
    match t.range with
    | some range => (s1.staleRange range).settle
    | none => s1

/-- What an accepted transaction does, by class (R102). -/
def State.accept (s : State) (t : Tx) (cls : TxClass) : State :=
  match cls with
  | .program | .eraseSector | .eraseBlock | .eraseChip | .statusWrite => s.acceptWrite t
  | .writeEnable => s.modShadow fun sh => { sh with writeEnable := .set, wdPending := false }
  | .writeDisable => s.modShadow fun sh => { sh with writeEnable := .clear }
  | .wake => s.modShadow fun sh => { sh with power := .awake, sleepPending := false }
  | .resume => s.modShadow fun sh => { sh with busy := .busy }
  | .sleep => s.modShadow Shadow.fallAsleep
  | .read | .statusRead | .plain | .service | .barred => s

/-- The judgement at select rise and what it hands on (R101, R102); a truncated SLEEP that is framed sets sleep pending (R103). -/
def State.judgeRise (s : State) (t : Tx) : State :=
  match t.entry with
  | none => s
  | some e =>
    if t.accepted then s.accept t e.cls
    else if e.cls = .sleep ∧ t.framed ∧ t.handling = .truncated then s.modShadow fun sh => { sh with sleepPending := true }
    else s

/-- The cause set is handed to the permit controller's tally (R86, R87). -/
def State.handCauses (s : State) (t : Tx) : State :=
  if s.permit.running then { s with report := s.report.map fun r => { r with tally := r.tally.add t.causes } } else s

/-- The transaction is over: the record is discarded, the flash is FREE, and the mode follows the permit state (R94, R100, R134). -/
def State.endTx (s : State) : State :=
  { s with up := { s.up with select := false, tx := none }, fp := s.fp.toFree }.settleMode

/-- The request a consumed transaction carries is handed on and taken, if the rise is at a byte boundary (R106, R164). -/
def State.handRequest (s : State) (t : Tx) : State :=
  if t.handling = .consumed ∧ t.atBoundary then s.takeBytes t.service else s

/-- Select rises on transaction `t` (R100). Of a consumed transaction the request is taken first, and the flash port then chooses among
what is due after it: R106 and R134 put both in this one event and give no order (DESIGN CHOICE, log 38). -/
def State.rise (s : State) (t : Tx) : State :=
  ((((s.judgeRise t).handCauses t).endTx).handRequest t).arbitrate

/-- UPSTREAM_SELECT_RISE (R100). -/
def execUpstreamSelectRise (clocks : Fin 8) (s : State) : Result :=
  if s.up.select then
    match s.up.tx, s.up.mode with
    | some t, _ => .next (s.rise { t with clocks })
    | none, .passThrough => .next ({ s with up := { s.up with select := false } }.flashSelect false).settleMode
    | none, _ => .next { s with up := { s.up with select := false } }.settleMode
  else .next s

end Sys2Proof.Machine
end

