-- ==== Sys2Proof/Machine/Events.lean ====
section
/-! DEFINITION. The events of the verifier, the permit controller, the flash port and the key store: completions and expiries. An expiry
takes the time it needs to pass (log 3). A completion or expiry of what is not in progress does not happen (log 1). -/

namespace Sys2Proof.Machine

/-! ## Verifier (Chapters 3 and 4) -/

/-- The byte a burst brings to context `c` is the last of a manifest or of a payload, so that a check or a completion follows in its
event (R61, R71). -/
def State.completes (s : State) (c : Fin 4) : Bool :=
  match s.ctx c with
  | none => false
  | some x =>
    match x.phase with
    | .header => x.gathering.any fun m => m.bytes.length == 79
    | .payload => (s.hashing c).any s.lastByte

/-- The byte enters the header store or the digest (R66). -/
def State.takeByte (s : State) (c : Fin 4) (b : Byte) : State :=
  match (s.ctx c).map Ctx.phase with
  | some .header => s.gather c b
  | some .payload =>
    match s.hashing c with
    | some i => s.absorb c i b false
    | none => s
  | none => s

/-- The burst of `left` bytes for context `c` has had one byte more: it ends with its last (R66, R136). -/
def State.countBurst (s : State) (c : Fin 4) (left : Nat) : State :=
  if s.burstFor c then
    if left ≤ 1 then s.freeFlash else { s with fp := { s.fp with holder := .own (.burst c (left - 1)) } }
  else s

/-- BURST_BYTE_RECEIVED (R66). -/
def execBurstByteReceived (b : Byte) (s : State) : Result :=
  match s.fp.holder with
  | .own (.burst c left) =>
    let s1 := (s.takeByte c b).countBurst c left
    .next (if s.completes c then s1.settle else s1).arbitrate
  | _ => .next s

/-- SIGNATURE_CHECK_COMPLETE (R76): the result of the check of R23 under the key read at its start, discarded if withdrawn, else
reported to the run logic. -/
def execSignatureCheckComplete (s : State) : Result :=
  match s.sigUnit with
  | .checking e withdrawn key t =>
    let s1 := { s.elapse t with sigUnit := .idle }
    let s2 := if withdrawn then s1 else s1.applyResult e (checkSignature key e.digest e.signature)
    .next s2.settle.arbitrate
  | .idle => .next s

/-- DEADLINE_EXPIRY (R53). -/
def execDeadlineExpiry (s : State) : Result :=
  match s.deadline with
  | some t => .next (s.elapse t).expire.settle.arbitrate
  | none => .next s

/-! ## Permit controller (Chapter 10) -/

/-- HOLD_PULSE_EXPIRY (R157). The start-up pulse ends in the load's completion, not here. -/
def execHoldPulseExpiry (s : State) : Result :=
  match s.pulse with
  | .running t => .next ({ s.elapse t with pulse := .stopped }).drive
  | .stopped | .startup => .next s

/-! ## Flash port (Chapter 8) -/

/-- The shadow once the part's wake is complete (R130). -/
def Shadow.woken (fromAsleep : Bool) (wakeTime : Nat) (sh : Shadow) : Shadow :=
  { sh with sleepPending := sh.sleepPending || fromAsleep, power := if wakeTime = 0 then .awake else sh.power }

/-- WAKE_COMPLETE (R130). -/
def execWakeComplete (s : State) : Result :=
  match s.fp.holder with
  | .own (.wake fromAsleep) =>
    let t := s.cfg.wakeTime
    let s1 := s.freeFlash.modShadow (Shadow.woken fromAsleep t)
    .next ({ s1 with fp := { s1.fp with wakeWait := if t = 0 then none else some t } }).arbitrate
  | _ => .next s

/-- WAKE_WAIT_END (R130). -/
def execWakeWaitEnd (s : State) : Result :=
  match s.fp.wakeWait with
  | some t =>
    let s1 := (s.elapse t).modShadow fun sh => { sh with power := .awake }
    .next ({ s1 with fp := { s1.fp with wakeWait := none } }).arbitrate
  | none => .next s

/-- STATUS_POLL_COMPLETE (R131). -/
def execStatusPollComplete (status : Byte) (s : State) : Result :=
  match s.fp.holder with
  | .own .poll =>
    let s1 := s.freeFlash.readStatus status
    .next
      (if s1.fp.shadow.busy = .busy then { s1 with fp := { s1.fp with pollWait := some (10 * s.cfg.pollInterval) } }
        else s1).arbitrate
  | _ => .next s

/-- POLL_WAIT_END (R131). -/
def execPollWaitEnd (s : State) : Result :=
  match s.fp.pollWait with
  | some t =>
    let s1 := s.elapse t
    .next ({ s1 with fp := { s1.fp with pollWait := none } }).arbitrate
  | none => .next s

/-- WRITE_DISABLE_COMPLETE (R128). -/
def execWriteDisableComplete (s : State) : Result :=
  match s.fp.holder with
  | .own .writeDisable => .next (s.freeFlash.modShadow fun sh => { sh with writeEnable := .clear, wdPending := false }).arbitrate
  | _ => .next s

/-- SLEEP_COMPLETE (R128). -/
def execSleepComplete (s : State) : Result :=
  match s.fp.holder with
  | .own .sleep => .next (s.freeFlash.modShadow Shadow.fallAsleep).arbitrate
  | _ => .next s

/-! ## Key store (Chapter 9) -/

/-- The next unburned cell of a floor row is burned and the floor rises by one (R142, R146). -/
def State.raiseOne (s : State) (k : Fin 8) : State :=
  { s with
    store := (match rowNext s.store.floors[k] with | some p => s.store.burn (.floor k p) | none => s.store)
    keys := { s.keys with floors := s.keys.floors.set k (s.keys.floors[k] + 1) } }

/-- FLOOR_CELL_COMPLETE (R146): the job ends when the floor reaches its target, else the next cell begins. -/
def execFloorCellComplete (s : State) : Result :=
  match s.keys.burn with
  | some ⟨.floor k target, t⟩ =>
    let s1 := (s.elapse t).raiseOne k
    let burn := if target ≤ s1.keys.floors[k] then none else some ⟨.floor k target, 500⟩
    .next { s1 with keys := { s1.keys with burn } }
  | _ => .next s

/-- REVOKE_CELL_COMPLETE (R149). -/
def execRevokeCellComplete (s : State) : Result :=
  match s.keys.burn with
  | some ⟨.revoke slot, t⟩ =>
    let s1 := s.elapse t
    .next
      { s1 with
        store := s1.store.burn (.revoked slot)
        keys := { s1.keys with slots := s1.keys.slots.set slot { s1.keys.slots[slot] with state := .revoked }, burn := none } }
  | _ => .next s

end Sys2Proof.Machine
end

