-- ==== Sys2Proof/WellFormed.lean ====
section
/-! DEFINITION. Which commands are commands of the spec: the operands' own limits, apart from the state. -/

namespace Sys2Proof

/-- The request codes of R163's table. -/
def knownCodes : List Byte := [0x01, 0x02, 0x03, 0x04, 0x05, 0x06, 0x07, 0x0A]

/-- A command is well formed when its operands keep to the row's own limits: the bootstrap read returns 4 096 bytes (R177), and an
unknown request carries a code that R163's table does not list. -/
def Instr.wellFormed : Instr → Bool
  | .bootstrapReadComplete image => image.length == 4096
  | .unknownRequest code => !knownCodes.contains code
  | .powerOn .. | .resetNAssert | .resetNRelease .. | .loadComplete | .provisionCellBurnComplete | .upstreamSelectAssert
  | .instructionByteComplete _ | .addressComplete _ | .upstreamDataByte _ | .upstreamSelectRise _ | .report | .peek
  | .detail _ | .verify _ | .restart | .raiseFloor _ | .revoke _ | .fetch | .burstByteReceived _ | .signatureCheckComplete
  | .deadlineExpiry | .holdPulseExpiry | .wakeComplete | .wakeWaitEnd | .statusPollComplete _ | .pollWaitEnd
  | .writeDisableComplete | .sleepComplete | .floorCellComplete | .revokeCellComplete | .dummyCountComplete => true

end Sys2Proof
end

