-- ==== Sys2Proof/Machine/Requests.lean ====
section
/-! DEFINITION. The request commands (Chapter 11). A request command stands for the service transaction that carries the request: with
upstream select deasserted, for the whole transaction; with a consumed transaction in progress that has carried exactly the request's
bytes, for the select rise that ends it and hands it on (R106, R164). In any other state the request cannot be taken. DEDUCED, logs 7
and 8. -/

namespace Sys2Proof.Machine

/-- The state in which the handler takes a request that a whole service transaction has carried: the relay has held the flash from the
select assertion to the rise, cutting any own instruction (R106, R134), and the record is discarded. -/
def State.afterService (s : State) : State :=
  { s with up := { s.up with select := false, tx := none, out := none }, fp := s.fp.toRelay.toFree }.settleMode

/-- A request carried by the given service bytes: taken before the flash port chooses again (DESIGN CHOICE, log 38). -/
def State.request (s : State) (bytes : List Byte) : State :=
  match s.up.tx with
  | none => if s.up.mode = .relaying ∧ s.up.select = false then (s.afterService.takeBytes bytes).arbitrate else s
  | some t => if t.handling = .consumed ∧ t.service = bytes then s.rise { t with clocks := 0 } else s

/-- REPORT (R165). -/
def execReport (s : State) : Result := .next (s.request [0x01])

/-- PEEK (R165). -/
def execPeek (s : State) : Result := .next (s.request [0x02])

/-- DETAIL (R166). -/
def execDetail (index : Byte) (s : State) : Result := .next (s.request [0x03, index])

/-- VERIFY (R56, R167). -/
def execVerify (index : Byte) (s : State) : Result := .next (s.request [0x04, index])

/-- RESTART (R168). -/
def execRestart (s : State) : Result := .next (s.request [0x05])

/-- RAISE_FLOOR (R144). -/
def execRaiseFloor (kind : Byte) (s : State) : Result := .next (s.request [0x06, kind])

/-- REVOKE (R147). -/
def execRevoke (slot : Byte) (s : State) : Result := .next (s.request [0x07, slot])

/-- UNKNOWN_REQUEST (R163). With a code that R163's table lists it is no such request, and nothing happens (log 1). -/
def execUnknownRequest (code : Byte) (s : State) : Result :=
  if knownCodes.contains code then .next s else .next (s.request [code])

/-- The transaction record once a FETCH is recognised: tag and request code whole (R105, R106). -/
def State.fetchTx (s : State) : Tx :=
  { Tx.opened with
    phase := .data, entry := some (s.entry s.cfg.serviceByte), flashSide := .ended, handling := .consumed, k := 2
    service := [fetchCode] }

/-- FETCH (R171): recognised in the event in which its request code is whole; the response is then driven by UPSTREAM_DATA_BYTE, and
UPSTREAM_SELECT_RISE ends it. -/
def execFetch (s : State) : Result :=
  match s.up.tx with
  | none =>
    if s.up.mode = .relaying ∧ s.up.select = false then
      .next
        { s with
          up := { s.up with select := true, tx := some s.fetchTx, out := none }
          fp := { s.fp.toRelay with select := false } }
    else .next s
  | some t =>
    match t.handling, t.service with
    | .consumed, [] => .next (s.setTx (some { t with k := t.k + 1, service := [fetchCode] }))
    | _, _ => .next s

end Sys2Proof.Machine
end

