-- ==== Sys2Proof/Machine/Start.lean ====
section
/-! DEFINITION. Chapter 12: resets, the load, provisioning; and the clock synthesizer's decision at load (R138, R139). -/

namespace Sys2Proof.Machine

/-! ## Resets and the begin of a load (R175) -/

/-- The cell a burn job burns now (R142, R143). -/
def Store.jobCell (st : Store) : BurnJob → Option StoreCell
  | .floor k _ => (rowNext st.floors[k]).map (.floor k)
  | .revoke slot => some (.revoked slot)

/-- The store a reset leaves: a cell in the middle of its burn is cut (R151, R178). -/
def State.cutStore (s : State) : Store :=
  { s.store with
    cut :=
      match s.prov, s.keys.burn with
      | .burning _ cell _, _ => some cell
      | _, some b => s.store.jobCell b.job
      | _, none => s.store.cut }

/-- POWER_ON (R175): every block at its after-reset values, the run number 0 (R35), the load begun unless RESET_N is held low. -/
def execPowerOn (mode clkbyp cutReads : Bool) (s : State) : Result :=
  let straps := if s.resetN then s.straps else ⟨mode, clkbyp⟩
  .next
    { State.afterReset s.pending s.cutStore 0 s.resetN s.up.select straps .power with
      load := if s.resetN then .none else .running cutReads }

/-- RESET_N_ASSERT (R175): every block at its after-reset values, the run number kept (R35). -/
def execResetNAssert (s : State) : Result :=
  if s.resetN then .next s
  else .next (State.afterReset s.pending s.cutStore s.runNumber true s.up.select s.straps .pin)

/-- RESET_N_RELEASE (R175): the straps are sampled (R174) and the load begins. -/
def execResetNRelease (mode clkbyp cutReads : Bool) (s : State) : Result :=
  if s.resetN then .next { s with resetN := false, straps := ⟨mode, clkbyp⟩, load := .running cutReads }
  else .next s

/-! ## The load's completion (R175) -/

/-- The settings are legal (R138): N, M, P in their ranges and the three limits held, tested on the exact values. -/
def clockLegal (fRef n m p : Nat) : Bool :=
  decide (1 ≤ n) && decide (n ≤ 16) && decide (8 ≤ m) && decide (m ≤ 127) && decide (1 ≤ p) && decide (p ≤ 8)
    && decide (4 * n ≤ fRef) && decide (200 * n ≤ fRef * m) && decide (fRef * m ≤ 480 * n)
    && decide (fRef * m ≤ 120 * (n * p))

/-- The check time in µs for f_core = num / den MHz (R75): 12 ms × 100 MHz / f_core, rounded up. -/
def checkTimeOf (num den : Nat) : Nat := (1200000 * den + num - 1) / num

/-- The synthesizer after a load that found a valid store (R138, R139). -/
def synthOf (bypassStrap : Bool) (c : LoadedConfig) : Synth :=
  let lock := !bypassStrap && clockLegal c.fRef c.n c.m c.p
  let num := if lock then c.fRef * c.m else c.fRef
  let den := if lock then c.n * c.p else 1
  { fRef := c.fRef, n := c.n, m := c.m, p := c.p, bypass := !lock, coreNum := num, coreDen := den, checkTime := checkTimeOf num den }

/-- The key store as the load reads it from the store (R141, R142). -/
def keysOf (st : Store) (c : LoadedConfig) : KeyStore :=
  { slots := Vector.ofFn fun i => ⟨st.keyState i, c.keys[i].1, c.keys[i].2⟩
    floors := st.floors.map rowFloor, burn := none }

/-- A sealed store loads when its CRC holds and its configuration passes validation (R175, R176). -/
def Store.loadable (st : Store) : Option LoadedConfig :=
  if crc32 st.config = st.crc then configOfBytes st.config else none

/-- The cut cell is resolved by the load: one that reads burned is burned to full strength, one that reads unburned stays so (R151,
R173). So for the seal mark too, which R178 says a reset during PROVISIONING leaves unburned: DESIGN CHOICE, log 40. -/
def Store.resolve (st : Store) (reads : Bool) : Store :=
  match st.cut with
  | some c => { (if reads then st.burn c else st) with cut := none }
  | none => st

/-- The start-up pulse when the load completes with a configured hold pulse: what is left of it, measured from the reset (R157). -/
def State.startPulse (s : State) (holdMs : Nat) : Pulse :=
  if 1000 * holdMs ≤ s.sinceReset then .stopped else .running (1000 * holdMs - s.sinceReset)

/-- Every block receives its configured values (R175). -/
def State.handOver (s : State) (c : LoadedConfig) : State :=
  { s with
    cfg := c.cfg, synth := synthOf s.straps.bypass c, keys := keysOf s.store c, regions := c.regions
    pairs := pairsOf c.regions, pulse := s.startPulse c.cfg.holdPulse }

/-- Entry to FAULT (R152): the alert cause joins (R161), the alert enable is yes (R162). -/
def State.enterFault (s : State) : State :=
  { s with
    permit := .fault, prov := .idle, pulse := if s.pulse = .startup then .stopped else s.pulse
    cfg := { s.cfg with alertEnable := true }, alerts := { s.alerts with fault := true } }

/-- The bootstrap read is issued (R177): instruction byte 13h, address FFFF_F000h, one line throughout, no dummy clocks. -/
def FlashPort.issueBootstrap (f : FlashPort) : FlashPort := f.issue .bootstrap 0x13 [0xFF, 0xFF, 0xF0, 0x00] ⟨.read, 4, 1, 0, 1⟩

/-- Entry to PROVISIONING (R152, R177). -/
def State.enterProvisioning (s : State) : State :=
  { s with permit := .provisioning, prov := .reading, pulse := .stopped, fp := s.fp.issueBootstrap }

/-- What the load leads to, by the store's condition, the validation and MODE (R152, R175). -/
def State.afterLoad (s : State) : State :=
  if s.store.sealed then
    match s.store.loadable with
    | some c => (s.handOver c).runStart s.resetCause
    | none => s.enterFault.drive
  else if s.straps.provision then s.enterProvisioning.drive
  else if s.store.isBlank then { s with permit := .unprovisioned, pulse := .stopped }.drive
  else s.enterFault.drive

/-- LOAD_COMPLETE (R175). -/
def execLoadComplete (s : State) : Result :=
  match s.load with
  | .none => .next s
  | .running reads =>
    .next ({ s with load := .none, store := s.store.resolve reads }.afterLoad.settleMode.arbitrate)

/-! ## Provisioning (R177) -/

/-- The next cell of the provisioning burn, or PROVISIONED once none is left (R177). -/
def State.burnNext (s : State) (want : Store) : State :=
  match s.store.nextCell want with
  | some c => { s with prov := .burning want c 500 }
  | none => { s with prov := .idle, permit := .provisioned }

/-- BOOTSTRAP_READ_COMPLETE (R177): CRC, validation, comparison with the store, and the first burn. -/
def execBootstrapReadComplete (image : List Byte) (s : State) : Result :=
  if s.prov = .reading ∧ image.length = 4096 then
    let s1 := s.freeFlash
    if !imageCrcHolds image || !imageValid image then .next s1.enterFault.drive
    else if s.store.conflicts (storeOfImage image) then .next s1.enterFault.drive
    else .next (s1.burnNext (storeOfImage image)).drive
  else .next s

/-- PROVISION_CELL_BURN_COMPLETE (R177). -/
def execProvisionCellBurnComplete (s : State) : Result :=
  match s.prov with
  | .burning want cell t =>
    let s1 := s.elapse t
    .next ({ s1 with store := s1.store.burn cell }.burnNext want).drive
  | .idle | .reading => .next s

end Sys2Proof.Machine
end

