-- ==== Sys2Proof/Machine/Dispatch.lean ====
section
/-! DEFINITION. One arm per command: each one direct call of the command's meaning. -/

namespace Sys2Proof.Machine

/-- The effect of a command on everything but the queue. -/
def exec (i : Instr) (s : State) : Host.Outcome State Fault Refusal :=
  match i with
  | .powerOn mode clkbyp cutReads => Sys2Proof.Machine.execPowerOn mode clkbyp cutReads s
  | .resetNAssert => Sys2Proof.Machine.execResetNAssert s
  | .resetNRelease mode clkbyp cutReads => Sys2Proof.Machine.execResetNRelease mode clkbyp cutReads s
  | .loadComplete => Sys2Proof.Machine.execLoadComplete s
  | .bootstrapReadComplete image => Sys2Proof.Machine.execBootstrapReadComplete image s
  | .provisionCellBurnComplete => Sys2Proof.Machine.execProvisionCellBurnComplete s
  | .upstreamSelectAssert => Sys2Proof.Machine.execUpstreamSelectAssert s
  | .instructionByteComplete b => Sys2Proof.Machine.execInstructionByteComplete b s
  | .addressComplete a => Sys2Proof.Machine.execAddressComplete a s
  | .upstreamDataByte b => Sys2Proof.Machine.execUpstreamDataByte b s
  | .upstreamSelectRise clocks => Sys2Proof.Machine.execUpstreamSelectRise clocks s
  | .report => Sys2Proof.Machine.execReport s
  | .peek => Sys2Proof.Machine.execPeek s
  | .detail index => Sys2Proof.Machine.execDetail index s
  | .verify index => Sys2Proof.Machine.execVerify index s
  | .restart => Sys2Proof.Machine.execRestart s
  | .raiseFloor kind => Sys2Proof.Machine.execRaiseFloor kind s
  | .revoke slot => Sys2Proof.Machine.execRevoke slot s
  | .fetch => Sys2Proof.Machine.execFetch s
  | .unknownRequest code => Sys2Proof.Machine.execUnknownRequest code s
  | .burstByteReceived b => Sys2Proof.Machine.execBurstByteReceived b s
  | .signatureCheckComplete => Sys2Proof.Machine.execSignatureCheckComplete s
  | .deadlineExpiry => Sys2Proof.Machine.execDeadlineExpiry s
  | .holdPulseExpiry => Sys2Proof.Machine.execHoldPulseExpiry s
  | .wakeComplete => Sys2Proof.Machine.execWakeComplete s
  | .wakeWaitEnd => Sys2Proof.Machine.execWakeWaitEnd s
  | .statusPollComplete status => Sys2Proof.Machine.execStatusPollComplete status s
  | .pollWaitEnd => Sys2Proof.Machine.execPollWaitEnd s
  | .writeDisableComplete => Sys2Proof.Machine.execWriteDisableComplete s
  | .sleepComplete => Sys2Proof.Machine.execSleepComplete s
  | .floorCellComplete => Sys2Proof.Machine.execFloorCellComplete s
  | .revokeCellComplete => Sys2Proof.Machine.execRevokeCellComplete s
  | .dummyCountComplete => Sys2Proof.Machine.execDummyCountComplete s

end Sys2Proof.Machine
end

