-- ==== Sys2Proof/Safety.lean ====
section
/-! DEFINITION. What a safe run keeps: the agreements between the records of State that hold after reset and that every event keeps, and
the terms in which the statements are made. -/

namespace Sys2Proof.Machine

/-! ## Outputs -/

/-- The outputs agree with the records: PRINT_PERMIT (R155), CTRL_HOLD_N (R156, R157), ALERT_N (R162), FL_WP_N (R180). -/
def State.OutputsAgree (s : State) : Prop :=
  s.pins.printPermit = decide (s.permit = .permitted)
    ∧ s.pins.ctrlHold = (s.holdCondition || s.pulse.isRunning)
    ∧ s.pins.alert = (s.cfg.alertEnable && s.alerts.any)
    ∧ s.pins.protect = decide (s.permit ≠ .unprovisioned)

/-! ## The two ports -/

/-- The ports agree with the permit state and with each other: a transaction record stands exactly while upstream select is asserted in
RELAYING mode (R96), and exactly then the relay holds the flash (R134); with select deasserted the mode is the permit state's (R93, R94);
RELAYING comes only of a running permit state; a load runs only in LOADING and with RESET_N high (R175), the provisioning procedure only
in PROVISIONING (R152), its bootstrap read exactly while it reads (R177). -/
def State.PortsAgree (s : State) : Prop :=
  (s.up.tx.isSome = true ↔ s.up.select = true ∧ s.up.mode = .relaying)
    ∧ (s.fp.holder = .relay ↔ s.up.tx.isSome = true)
    ∧ (s.up.select = false → s.up.mode = s.permit.mode)
    ∧ (s.up.mode = .relaying → s.permit.running = true)
    ∧ (s.load ≠ .none → s.permit = .loading)
    ∧ (s.resetN = true → s.permit = .loading ∧ s.load = .none)
    ∧ (s.prov ≠ .idle → s.permit = .provisioning)
    ∧ (s.fp.holder = .own .bootstrap ↔ s.prov = .reading)

/-- A byte the controller samples is FFh wherever it is fill (R85) or comes of lines held high (R105). -/
def State.FillIsHigh (s : State) : Prop :=
  ∀ o, s.up.out = some o → o.origin = .flash ∨ o.origin = .response ∨ o.byte = 0xFF

/-! ## Runtime records -/

/-- A runtime record keeps its form (R2), for a region of length `len`: a reason exactly in REJECTED, a context only in HEADER and
HASHING, the recorded fields in their ranges, and in HASHING bytes still to come (R71). -/
def Runtime.Proper (len : Nat) (r : Runtime) : Prop :=
  (r.reason.isSome = true ↔ r.state = .rejected)
    ∧ (r.context.isSome = true → r.state = .header ∨ r.state = .hashing)
    ∧ (∀ m, r.recorded = some m →
        1 ≤ m.signedLength ∧ 256 + m.signedLength ≤ len ∧ m.epoch ≤ 63 ∧ m.sequence < 2 ^ 32
          ∧ (r.state = .hashing → r.progress < m.signedLength))

/-- Every runtime record belongs to a region of the table and keeps its form. -/
def State.RecordsProper (s : State) : Prop :=
  ∀ i t, s.rt i = some t → ∃ r, s.region i = some r ∧ t.Proper r.length

/-! ## Windows -/

/-- A translation entry of pair `j` (R8). -/
def Window.ofPair (j : Nat) (w : Window) : Bool := w.cause == .pair && w.owner == some j

/-- The two entries that R9 asks of pair `j` of record `p`: those of its swap while its selection is ALTERNATE, none otherwise. -/
def State.swapOf (s : State) (j : Nat) (p : Pair) : List Window :=
  match p.selection, s.region p.home, s.region p.alternate with
  | .alternate, some h, some a =>
    [⟨h.base, a.base, h.length, .pair, some j⟩, ⟨a.base, h.base, h.length, .pair, some j⟩]
  | _, _, _ => []

/-- The translation list agrees with the selections: sorted by from-base (R8); it holds of each pair the entries that R9 asks for, and
none of a pair that the recovery swap displaces (R10); the recovery flag stands while RECOVERY entries do (R159). -/
def State.WindowsAgree (s : State) : Prop :=
  s.trans.Pairwise (fun v w => v.from_ ≤ w.from_)
    ∧ s.recoverySwap = recoveryPresent s.trans
    ∧ ∀ j p, s.pair j = some p →
        (s.trans.filter (Window.ofPair j)).Perm (if recoveryPresent s.trans && s.ownsBoot p then [] else s.swapOf j p)

/-! ## Key store -/

/-- A burn job is one that the judgements of R144 and R147 start: a floor still below a target of at most 63, an ACTIVE slot. -/
def KeyStore.jobSound (k : KeyStore) : BurnJob → Prop
  | .floor kind target => k.floors[kind] < target ∧ target ≤ 63
  | .revoke slot => k.slots[slot].state = .active

/-- In a running permit state the key store's floors and slot states are those its cells in the store give (R142, R173). -/
def State.KeysAgree (s : State) : Prop :=
  s.permit.running = true →
    (∀ k : Fin 8, s.keys.floors[k] = rowFloor s.store.floors[k])
      ∧ (∀ i : Fin 4, s.keys.slots[i].state = s.store.keyState i)
      ∧ (∀ b, s.keys.burn = some b → s.keys.jobSound b.job)

/-- Every cell burned in `s` is burned in `t` (R173: a burn cannot be undone). -/
def Store.Keeps (s t : Store) : Prop := ∀ c, s.burned c = true → t.burned c = true

/-! ## Work of the verifier and of the flash port -/

/-- No work waits for a unit that is free: no context is free while the queue is not empty (R60), and the signature unit is not IDLE
while its list is not empty (R74). -/
def State.VerifierAtWork (s : State) : Prop :=
  (s.queue = [] ∨ ∀ c : Fin 4, (s.ctx c).isSome = true) ∧ (s.sigUnit = .idle → s.sigList = [])

/-! ## Terms of the statements -/

/-- The part waits for a transaction: RELAYING, upstream select deasserted. -/
def State.Listening (s : State) : Prop := s.up = ⟨false, .relaying, none, s.up.out⟩ ∧ s.permit.running = true

/-- The state in which a request is taken, the service transaction that carried it being over: the flash FREE, the port ready for the
next transaction (R106, R134, R164). -/
def State.served (s : State) : State :=
  { s with
    up := ⟨false, .relaying, none, none⟩
    fp := { s.fp with holder := .free, select := false, sent := [], shape := none } }

/-- The response to a request (R170, R172): four header bytes, the last of them 1 when a response not yet fetched is discarded, and the
data. -/
def State.reply (s : State) (code arg status : Byte) (data : List Byte) : Option Response :=
  some ⟨[code, arg, status, if s.response.any (fun r => !r.fetched) then 1 else 0] ++ data, false⟩

/-- The orders in which R172 codes states and pair states (from 0), reasons (from 1) and selections (from 0). -/
def stateCodes : List RState := [.unchecked, .queued, .header, .hashing, .signing, .verified, .rejected, .stale]
def reasonCodes : List Reason := [.blank, .format, .kind, .key, .epoch, .length, .signature, .deadline]
def pairStateCodes : List PairState := [.selecting, .tryingFirst, .tryingSecond, .selected, .failed]
def selectionCodes : List Selection := [.none, .home, .alternate]

/-- No write is allowed anywhere in these permit states (R110, first table). -/
def PermitState.shut (p : PermitState) : Prop := p = .loading ∨ p = .provisioning ∨ p = .provisioned ∨ p = .fault

/-- The effective write policy of region `i`, with record `r`, is LOCKED, by the tables of R110 to R112. A SLOT region that is no slot of
a pair, which R4 rules out, counts as LOCKED. -/
def State.PolicyLocked (s : State) (i : Nat) (r : Region) : Prop :=
  s.permit.shut
    ∨ (s.permit.running = true
        ∧ ((r.policy = .locked
              ∧ ¬ (s.permit = .denied ∧ r.role = some .required
                    ∧ (s.rstate i = some .rejected ∨ s.rstate i = some .stale)))
          ∨ (r.policy = .slot
              ∧ ∀ j p, s.pairOf i = some j → s.pair j = some p →
                  p.selected = some i ∨ (p.selection = .none ∧ ¬ (p.state = .failed ∧ s.permit = .denied)))))

/-- The effective write policy of unmapped space is LOCKED (R110). -/
def State.UnmappedLocked (s : State) : Prop := s.permit.shut ∨ (s.permit.running = true ∧ s.cfg.unmapped ≠ .free)

/-- The byte at physical address `a` may not be written now: it lies in a region whose effective write policy is LOCKED, or in no region
while unmapped space is LOCKED (R110 to R114). -/
def State.Protected (s : State) (a : Nat) : Prop :=
  (∃ i r, s.region i = some r ∧ r.holds a = true ∧ s.PolicyLocked i r)
    ∨ ((∀ i r, s.region i = some r → r.holds a = false) ∧ s.UnmappedLocked)

/-- The effective gate of region `i`, with record `r`, is `g`, by the table of R78. -/
def State.GateIs (s : State) (i : Nat) (r : Region) (g : Gate) : Prop :=
  (s.pairOf i = none ∧ g = r.gate)
    ∨ ∃ j p, s.pairOf i = some j ∧ s.pair j = some p
        ∧ ((p.selection = .none ∧ p.escalated = false ∧ g = r.gate)
          ∨ (p.selection = .none ∧ p.escalated = true ∧ g = .hold)
          ∨ (p.selection ≠ .none ∧ p.selected = some i ∧ p.escalated = false ∧ g = r.gate)
          ∨ (p.selection ≠ .none ∧ p.selected = some i ∧ p.escalated = true ∧ g = .hold)
          ∨ (p.selection ≠ .none ∧ p.selected ≠ some i ∧ g = .opened))

/-- The byte at physical address `a` may be shown to the controller now (R92), the signed extent being that of R22. -/
def State.Showable (s : State) (a : Nat) : Prop :=
  s.regionAt a = none
    ∨ ∃ i r, s.regionAt a = some i ∧ s.region i = some r
        ∧ (s.GateIs i r .opened
          ∨ ∃ t, s.rt i = some t
              ∧ ((t.state = .verified
                    ∧ ∃ m, t.recorded = some m
                        ∧ ((r.base ≤ a ∧ a < r.base + 80) ∨ (r.base + 256 ≤ a ∧ a < r.base + 256 + m.signedLength)))
                ∨ (s.GateIs i r .observe ∧ t.state ≠ .verified ∧ t.state ≠ .rejected ∧ t.state ≠ .stale)))

/-- Every REQUIRED image has passed (R153): the unpaired REQUIRED regions are VERIFIED, the REQUIRED pairs are SELECTED with their
selected slot VERIFIED. -/
def State.RequiredPassed (s : State) : Prop :=
  (∀ i r, s.region i = some r → r.role = some .required → s.pairOf i = none → s.isVerified i = true)
    ∧ ∀ j p, s.pair j = some p → s.pairRole p = some .required →
        p.state = .selected ∧ ∃ i, p.selected = some i ∧ s.isVerified i = true

/-- Every held image has passed (R156): the unpaired REQUIRED and OPTIONAL regions of gate HOLD, and the REQUIRED and OPTIONAL pairs of
gate HOLD or escalated. -/
def State.HeldPassed (s : State) : Prop :=
  (∀ i r, s.region i = some r → r.role = some .required ∨ r.role = some .optional → r.gate = .hold → s.pairOf i = none →
      s.isVerified i = true)
    ∧ ∀ j p, s.pair j = some p → s.pairRole p = some .required ∨ s.pairRole p = some .optional →
        p.escalated = true ∨ s.pairGate p = some .hold → ∃ i, p.selected = some i ∧ s.isVerified i = true

/-- A required image has failed (R153). -/
def State.RequiredFailed (s : State) : Prop :=
  (∃ i r, s.region i = some r ∧ r.role = some .required ∧ s.pairOf i = none
      ∧ (s.rstate i = some .rejected ∨ s.rstate i = some .stale))
    ∨ ∃ j p, s.pair j = some p ∧ s.pairRole p = some .required
        ∧ (p.state = .failed ∨ (p.state = .selected ∧ ¬ ∃ i, p.selected = some i ∧ s.isVerified i = true))

/-- The class phase that follows an instruction byte with `address` address bytes and `dummy` dummy clocks to come (R97, R98). -/
def phaseAfter (address dummy : Nat) : TxPhase := if address ≠ 0 then .address else if dummy ≠ 0 then .dummy else .data

/-- A violation count one higher, kept at 255 (R124). -/
def countUp (n : Nat) : Nat := if n < 255 then n + 1 else n

/-- The report once the cause set of transaction `x` is handed over, in a running permit state (R86, R87). -/
def State.tallied (s : State) (x : Tx) : Option Report :=
  if s.permit.running then s.report.map fun r => { r with tally := r.tally.add x.causes } else s.report

/-- The state after the select rise that ends transaction `x` and leaves the shadow at `sh`, before the flash port chooses again: the
record discarded, the flash FREE, the mode that of the permit state (R94, R100, R134). -/
def State.ended (s : State) (x : Tx) (sh : Shadow) : State :=
  { s with
    up := ⟨false, s.permit.mode, none, s.up.out⟩
    fp := { s.fp with holder := .free, select := false, shadow := sh }
    report := s.tallied x }

/-- Region `i`, with record `r`, is an image the printer is running, with recorded fields `m` (R145): VERIFIED and REQUIRED, unpaired or
the selected slot of its pair. -/
def State.RunningImage (s : State) (i : Nat) (r : Region) (m : Recorded) : Prop :=
  s.region i = some r ∧ r.role = some .required ∧ s.isVerified i = true
    ∧ (∃ t, s.rt i = some t ∧ t.recorded = some m)
    ∧ (s.pairOf i = none ∨ ∃ j p, s.pairOf i = some j ∧ s.pair j = some p ∧ p.selected = some i)

/-- The cell that a provisioning towards `want` burns next: the first in store order that is wanted and unburned; none when no wanted
cell is unburned (R177). -/
def Store.IsNextBurn (st want : Store) : Option StoreCell → Prop
  | none => ∀ c ∈ storeCells, want.burned c = true → st.burned c = true
  | some c =>
    want.burned c = true ∧ st.burned c = false
      ∧ ∃ before after, storeCells = before ++ c :: after ∧ ∀ d ∈ before, want.burned d = true → st.burned d = true

/-- The recovery swap stands where R159 asks for it: in DENIED, the recovery region VERIFIED and the boot window configured. -/
def State.SwapStands (s : State) : Prop :=
  s.permit = .denied → ∀ k, s.recoveryRegion = some k → s.isVerified k = true →
    (∃ b, s.cfg.bootWindow = some b ∧ (s.region b).isSome = true) → s.recoverySwap = true

/-- The list holds the two entries that exchange the windows [a, +len) and [b, +len) (R9, R10). -/
def exchanges (a b len : Nat) (cause : WindowCause) (owner : Option Nat) (ws : List Window) : Prop :=
  ⟨a, b, len, cause, owner⟩ ∈ ws ∧ ⟨b, a, len, cause, owner⟩ ∈ ws

/-- The place of an owner in the queue of a run start (R37): the index of its region, the lower of its pair's two. -/
def State.placeOf (s : State) : Owner → Nat
  | .region i => i
  | .pair j => ((s.pair j).map fun p => min p.home p.alternate).getD 0

/-- The priority of an owner in the queue of a run start (R37). -/
def State.rankOf (s : State) (o : Owner) : Nat := (((s.region (s.placeOf o)).bind Region.priority).getD 0).val

/-- `order` is the queue of a run start (R37): each unpaired verifiable region and each pair once, higher priority first, then in
ascending region index, a pair at the lower index of its two slots. -/
def State.IsRunOrder (s : State) (order : List Owner) : Prop :=
  order.Nodup
    ∧ (∀ i, Owner.region i ∈ order ↔ ∃ r, s.region i = some r ∧ r.gate ≠ .opened ∧ s.pairOf i = none)
    ∧ (∀ j, Owner.pair j ∈ order ↔ ∃ p, s.pair j = some p ∧ (s.region (min p.home p.alternate)).isSome = true
        ∧ s.pairOf (min p.home p.alternate) = some j)
    ∧ order.Pairwise fun o o' => s.rankOf o' < s.rankOf o ∨ (s.rankOf o' = s.rankOf o ∧ s.placeOf o < s.placeOf o')

/-! ## What PERMITTED rests on (R154) -/

/-- The tables are those a validated load leaves (R4, R5, R7): an unpaired REQUIRED region is LOCKED; the slots of a pair are two
verifiable regions of policy SLOT and of no other pair; a SELECTING pair has no selection (R45). -/
def State.TablesSound (s : State) : Prop :=
  (∀ i r, s.region i = some r → r.role = some .required → s.pairOf i = none → r.policy = .locked)
    ∧ ∀ j p, s.pair j = some p →
        p.home ≠ p.alternate ∧ (p.state = .selecting → p.selection = .none)
          ∧ ∀ slot, s.pairOf (p.region slot) = some j
              ∧ ∃ r, s.region (p.region slot) = some r ∧ r.policy = .slot ∧ r.gate ≠ .opened

/-- The verify queue names each attempt that waits once, and only those (R37, R38): the regions it stands for are QUEUED, a pair of the
queue is SELECTING, and a slot with an entry of its own belongs to a pair whose procedure is over. -/
def State.QueueSound (s : State) : Prop :=
  s.queue.Nodup
    ∧ ∀ o ∈ s.queue, (∀ i ∈ s.ownerRegions o, s.rstate i = some .queued)
        ∧ (match o with
            | .region i => ∀ j p, s.pairOf i = some j → s.pair j = some p → p.state = .selected ∨ p.state = .failed
            | .pair j => ∃ p, s.pair j = some p ∧ p.state = .selecting)

/-- A pair holds one context at most, in phase HEADER while it is SELECTING and no longer queued, in phase PAYLOAD while it tries a
candidate (R39, R47, R48, R50). -/
def State.ContextsSound (s : State) : Prop :=
  (∀ c z j, s.ctx c = some z → z.owner = .pair j →
      ∃ p, s.pair j = some p
        ∧ ((z.phase = .header ∧ p.state = .selecting ∧ s.rstate p.home ≠ some .queued)
          ∨ (z.phase = .payload ∧ (p.state = .tryingFirst ∨ p.state = .tryingSecond))))
    ∧ ∀ c c' z z' j, s.ctx c = some z → z.owner = .pair j → s.ctx c' = some z' → z'.owner = .pair j → c = c'

/-- A write in progress that was forwarded touches no region that PERMITTED rests on (R110 to R112, R123): an unpaired REQUIRED region
only in DENIED, a selected slot only while it is the second candidate, selected after the decision and not yet hashed. -/
def State.WriteSound (s : State) : Prop :=
  ∀ x lo n, s.up.tx = some x → x.range = some (lo, n) →
    x.phase ≠ .instruction
      ∧ (∃ e, x.entry = some e ∧ e.cls ∈ [TxClass.program, .eraseSector, .eraseBlock, .eraseChip])
      ∧ (x.handling = .relay → ∀ i r, s.region i = some r → (∃ a, lo ≤ a ∧ a < lo + n ∧ r.holds a = true) →
          (r.role = some .required → s.pairOf i = none → s.permit = .denied)
            ∧ ∀ j p, s.pairOf i = some j → s.pair j = some p →
                p.state ≠ .selecting ∧ (p.selected = some i → p.state = .tryingSecond ∧ s.rstate i = some .hashing))

/-- What PERMITTED rests on stands (R154, R155): while the permit state is PERMITTED every required image has passed; with it, what keeps
it so. -/
def State.PermitSound (s : State) : Prop :=
  s.TablesSound ∧ s.QueueSound ∧ s.ContextsSound ∧ s.WriteSound ∧ (s.permit = .permitted → s.RequiredPassed)

/-! ## The run's end (R54, R153) -/

/-- No decision is due (R153): while the permit state is VERIFYING, neither has every required image passed nor has one failed. -/
def State.DecisionMade (s : State) : Prop := s.permit = .verifying → ¬ s.RequiredPassed ∧ ¬ s.RequiredFailed

/-- The records of the run agree with the permit state: the deadline runs in VERIFYING only (R52); in a running permit state there is the
report of the present run (R160), with its duration exactly once VERIFYING is left (R54); the alert cause DENIED stands exactly in DENIED
(R161). -/
def State.RunAgrees (s : State) : Prop :=
  (s.deadline ≠ none → s.permit = .verifying)
    ∧ (s.permit.running = true →
        ∃ r, s.report = some r ∧ r.runNumber = s.runNumber ∧ (r.duration.isSome = true ↔ s.permit ≠ .verifying))
    ∧ (s.alerts.denied = true ↔ s.permit = .denied)

/-- Commands taken one after another, for as long as each answers a next state. -/
def execAll : List Instr → State → Result
  | [], s => .next s
  | c :: cs, s =>
    match exec c s with
    | .next t => execAll cs t
    | .fault f => .fault f
    | .refused r => .refused r

end Sys2Proof.Machine
end

