-- ==== Sys2Proof/Certificates/Slice0/Obligations.lean ====
section
/-! DEFINITION. The statements for the provers. A statement says what a command does by giving the state it answers, or that state's
records; `arbitrate` at the end of such a state is the flash port's choice of its next own instruction, which
`TheArbiterIssuesWhatIsDue` states. -/

open Sys2Proof Sys2Proof.Machine

/-! ## The step -/

/-- A step takes the command at the front of the queue and runs it with the queue's rest. -/
def Obligations.AStepRunsTheFrontCommand : Prop :=
  ∀ (c : Instr) (rest : List Instr) (s : State), s.pending = c :: rest → step s = exec c { s with pending := rest }

/-- On an empty queue one microsecond passes. The times since the reset and since the run start gain it; the deadline, the hold pulse, the
signature check, the cells being burned, the wake wait and the poll wait lose it where they run. Exactly the commands of the timers that
have then run out join the queue, each once, in an order left open. The model's choice: logs 2 and 4. -/
def Obligations.AnIdleStepLetsAMicrosecondPass : Prop :=
  ∀ s : State, s.pending = [] →
    ∃ t, step s = .next t ∧
      t = { s with
            pending := t.pending
            sinceReset := s.sinceReset + 1
            runElapsed := s.runElapsed + 1
            deadline := s.deadline.map (· - 1)
            pulse := match s.pulse with | .running n => .running (n - 1) | p => p
            sigUnit := match s.sigUnit with | .checking e w key n => .checking e w key (n - 1) | .idle => .idle
            prov := match s.prov with | .burning want cell n => .burning want cell (n - 1) | p => p
            keys := { s.keys with burn := s.keys.burn.map fun b => { b with remaining := b.remaining - 1 } }
            fp := { s.fp with wakeWait := s.fp.wakeWait.map (· - 1), pollWait := s.fp.pollWait.map (· - 1) } } ∧
      t.pending.Nodup ∧
      ∀ c, c ∈ t.pending ↔
        (c = .signatureCheckComplete ∧ ∃ e w key n, s.sigUnit = .checking e w key n ∧ n ≤ 1)
          ∨ (c = .deadlineExpiry ∧ ∃ n, s.deadline = some n ∧ n ≤ 1)
          ∨ (c = .holdPulseExpiry ∧ ∃ n, s.pulse = .running n ∧ n ≤ 1)
          ∨ (c = .wakeWaitEnd ∧ ∃ n, s.fp.wakeWait = some n ∧ n ≤ 1)
          ∨ (c = .pollWaitEnd ∧ ∃ n, s.fp.pollWait = some n ∧ n ≤ 1)
          ∨ (c = .floorCellComplete ∧ ∃ k target n, s.keys.burn = some ⟨.floor k target, n⟩ ∧ n ≤ 1)
          ∨ (c = .revokeCellComplete ∧ ∃ i n, s.keys.burn = some ⟨.revoke i, n⟩ ∧ n ≤ 1)
          ∨ (c = .provisionCellBurnComplete ∧ ∃ want cell n, s.prov = .burning want cell n ∧ n ≤ 1)

/-- No command ends a run, and none touches the queue: one that cannot happen answers the state as it stands. The model's choice, log 1,
and the queue itself. -/
def Obligations.NoCommandEndsARunOrTouchesTheQueue : Prop :=
  ∀ (c : Instr) (s : State), ∃ t, exec c s = .next t ∧ t.pending = s.pending

/-- An event that cannot happen in the present state, the completion or expiry of what is not in progress, a byte of a phase the
transaction is not in, a request while the port cannot carry it, changes nothing. The model's choice, log 1. -/
def Obligations.AnImpossibleEventChangesNothing : Prop :=
  ∀ s : State,
    let idle : Prop := s.up.tx = none → s.up.mode ≠ .passThrough ∨ s.up.select = false
    (s.load = .none → exec .loadComplete s = .next s) ∧
    (∀ image, s.prov ≠ .reading ∨ image.length ≠ 4096 → exec (.bootstrapReadComplete image) s = .next s) ∧
    ((∀ want cell r, s.prov ≠ .burning want cell r) → exec .provisionCellBurnComplete s = .next s) ∧
    ((∀ x, s.up.tx = some x → x.phase ≠ .instruction) → idle → ∀ b, exec (.instructionByteComplete b) s = .next s) ∧
    ((∀ x, s.up.tx = some x → x.phase ≠ .address) → idle → ∀ a, exec (.addressComplete a) s = .next s) ∧
    ((∀ x, s.up.tx = some x → x.phase ≠ .dummy) → exec .dummyCountComplete s = .next s) ∧
    (s.up.mode = .relaying → (∀ x, s.up.tx = some x → x.phase ≠ .data) → ∀ b, exec (.upstreamDataByte b) s = .next s) ∧
    (s.up.mode ≠ .relaying → s.up.select = false → ∀ b, exec (.upstreamDataByte b) s = .next s) ∧
    ((∀ c n, s.fp.holder ≠ .own (.burst c n)) → ∀ b, exec (.burstByteReceived b) s = .next s) ∧
    (s.sigUnit = .idle → exec .signatureCheckComplete s = .next s) ∧
    (s.deadline = none → exec .deadlineExpiry s = .next s) ∧
    ((∀ r, s.pulse ≠ .running r) → exec .holdPulseExpiry s = .next s) ∧
    ((∀ f, s.fp.holder ≠ .own (.wake f)) → exec .wakeComplete s = .next s) ∧
    (s.fp.wakeWait = none → exec .wakeWaitEnd s = .next s) ∧
    (s.fp.holder ≠ .own .poll → ∀ b, exec (.statusPollComplete b) s = .next s) ∧
    (s.fp.pollWait = none → exec .pollWaitEnd s = .next s) ∧
    (s.fp.holder ≠ .own .writeDisable → exec .writeDisableComplete s = .next s) ∧
    (s.fp.holder ≠ .own .sleep → exec .sleepComplete s = .next s) ∧
    ((∀ k target r, s.keys.burn ≠ some ⟨.floor k target, r⟩) → exec .floorCellComplete s = .next s) ∧
    ((∀ slot r, s.keys.burn ≠ some ⟨.revoke slot, r⟩) → exec .revokeCellComplete s = .next s) ∧
    (((s.up.tx = none ∧ (s.up.mode ≠ .relaying ∨ s.up.select = true)) ∨ ∃ x, s.up.tx = some x ∧ x.handling ≠ .consumed) →
      ∀ c : Instr, (c ∈ [Instr.report, .peek, .restart, .fetch]
          ∨ ∃ b, c ∈ [Instr.detail b, .verify b, .raiseFloor b, .revoke b, .unknownRequest b]) →
        exec c s = .next s)

/-! ## Resets, load and start -/

/-- State.reset is the state of R175's power-on: every block at its after-reset values, and the agreements of Safety.lean hold in it. The
straps and the levels of the pins from outside are the model's choice, log 5. -/
def Obligations.ResetLeavesTheAfterResetValuesInAgreement : Prop :=
  (State.reset.permit = .loading ∧ State.reset.pins = ⟨true, false, false, true⟩ ∧ State.reset.up.mode = .detached
     ∧ State.reset.up.tx = none ∧ State.reset.fp.holder = .free ∧ State.reset.fp.shadow = ⟨.unknown, .unknown, .awake, false, false⟩
     ∧ State.reset.regions = [] ∧ State.reset.pairs = [] ∧ State.reset.runtime = [] ∧ State.reset.queue = []
     ∧ State.reset.trans = [] ∧ (∀ c : Fin 4, State.reset.ctx c = none) ∧ State.reset.sigList = [] ∧ State.reset.sigUnit = .idle
     ∧ State.reset.runNumber = 0 ∧ State.reset.deadline = none ∧ State.reset.report = none
     ∧ State.reset.violation = ⟨0, none⟩ ∧ State.reset.alerts = ⟨false, false, false, false⟩
     ∧ State.reset.response = none ∧ State.reset.recoverySwap = false ∧ State.reset.keys.burn = none
     ∧ (∀ c, State.reset.store.burned c = false)) ∧
  (State.reset.OutputsAgree ∧ State.reset.PortsAgree ∧ State.reset.FillIsHigh ∧ State.reset.RecordsProper ∧ State.reset.WindowsAgree
     ∧ State.reset.KeysAgree ∧ State.reset.VerifierAtWork ∧ State.reset.SwapStands ∧ State.reset.PermitSound
     ∧ State.reset.DecisionMade ∧ State.reset.RunAgrees ∧ State.reset.arbitrate = State.reset)

/-- POWER_ON sets every block to its after-reset values, keeps the store, sets the run number to 0, and begins a load with the straps it
samples; while RESET_N is low no load begins and the straps stand. -/
def Obligations.PowerOnSetsEveryBlockAfresh : Prop :=
  ∀ (mode clkbyp cut : Bool) (s : State), ∃ t, exec (.powerOn mode clkbyp cut) s = .next t ∧
    t = { State.reset with
          pending := s.pending, resetN := s.resetN, up := ⟨s.up.select, .detached, none, none⟩
          straps := if s.resetN = true then s.straps else ⟨mode, clkbyp⟩
          load := if s.resetN = true then .none else .running cut
          store := { s.store with cut := t.store.cut } }

/-- RESET_N_ASSERT sets every block to its after-reset values at once, with cause PIN and power UNKNOWN, and keeps the store and the run
number; RESET_N_RELEASE samples the straps and begins a load. That a pin at that level already changes nothing is the model's choice, log
1. -/
def Obligations.TheResetPinSetsEveryBlockAfreshAndBeginsALoad : Prop :=
  (∀ s : State, ∃ t, exec .resetNAssert s = .next t ∧
     (s.resetN = true → t = s) ∧
     (s.resetN = false →
       t = { State.reset with
             pending := s.pending, resetN := true, resetCause := .pin, up := ⟨s.up.select, .detached, none, none⟩
             straps := s.straps, load := .none, runNumber := s.runNumber
             fp := { State.reset.fp with shadow := ⟨.unknown, .unknown, .unknown, false, false⟩ }
             store := { s.store with cut := t.store.cut } })) ∧
  (∀ (mode clkbyp cut : Bool) (s : State),
     (s.resetN = true →
       exec (.resetNRelease mode clkbyp cut) s
         = .next { s with resetN := false, straps := ⟨mode, clkbyp⟩, load := .running cut }) ∧
     (s.resetN = false → exec (.resetNRelease mode clkbyp cut) s = .next s))

/-- A reset leaves the cell in the middle of its burn to be resolved by the next load: the cell of the provisioning burn, the next
unburned cell of the row of a FLOOR job, the revocation cell of a REVOKE job. That with no burn running a cell cut before stays so, and
the record of the cut cell itself, are the model's choice, log 11. -/
def Obligations.AResetCutsTheCellInItsBurn : Prop :=
  ∀ (c : Instr) (s t : State), (∃ m b r, c = .powerOn m b r) ∨ (c = .resetNAssert ∧ s.resetN = false) → exec c s = .next t →
    (∀ want cell r, s.prov = .burning want cell r → t.store.cut = some cell) ∧
    ((∀ want cell r, s.prov ≠ .burning want cell r) →
      (s.keys.burn = none → t.store.cut = s.store.cut) ∧
      (∀ slot r, s.keys.burn = some ⟨.revoke slot, r⟩ → t.store.cut = some (.revoked slot)) ∧
      (∀ k target r, s.keys.burn = some ⟨.floor k target, r⟩ →
        (∀ p : Fin 63, s.store.floors[k].getLsbD p = false → (∀ q : Fin 63, q < p → s.store.floors[k].getLsbD q = true) →
          t.store.cut = some (.floor k p))))

/-- LOAD_COMPLETE resolves the cut cell as it reads, and leads to the permit state that the store, the validation and MODE give; a sealed
and valid store hands its values to the blocks and starts a run of the reset's cause: the state is the run start, as
`ARestartSetsTheRunAfresh` gives it, of the state that holds the loaded values and the pairs of the loaded regions, with the port's mode and
the flash port's choice following. The start-up pulse ends with it, or once the configured hold pulse has run since the reset, whichever
is later. What a cut cell, the seal mark among them, reads as is left open by the model's choice: logs 11 and 40. -/
def Obligations.LoadCompleteFollowsTheStore : Prop :=
  (∀ (reads : Bool) (s : State), s.load = .running reads → ∃ t, exec .loadComplete s = .next t ∧
    t.load = .none ∧
    t.store = { (match s.store.cut with
                  | some c => if reads = true then s.store.burn c else s.store
                  | none => s.store) with cut := none } ∧
    t.up = { s.up with mode := if s.up.select = true then s.up.mode else t.permit.mode } ∧
    (t.store.sealed = true → t.store.loadable = none →
      t.permit = .fault ∧ t.alerts = { s.alerts with fault := true } ∧ t.cfg = { s.cfg with alertEnable := true }
        ∧ t.runNumber = s.runNumber) ∧
    (t.store.sealed = false → s.straps.provision = true →
      t.permit = .provisioning ∧ t.prov = .reading ∧ t.fp.holder = .own .bootstrap ∧ t.fp.select = true
        ∧ t.fp.sent = [0x13, 0xFF, 0xFF, 0xF0, 0x00]) ∧
    (t.store.sealed = false → s.straps.provision = false → t.store.isBlank = true →
      t.permit = .unprovisioned ∧ t.pins.ctrlHold = false ∧ t.pins.protect = false) ∧
    (t.store.sealed = false → s.straps.provision = false → t.store.isBlank = false →
      t.permit = .fault ∧ t.alerts = { s.alerts with fault := true }) ∧
    (∀ c, t.store.sealed = true → t.store.loadable = some c →
      t.permit.running = true ∧ t.cfg = c.cfg ∧ t.regions = c.regions ∧ t.synth = synthOf s.straps.bypass c
        ∧ (∀ k : Fin 8, t.keys.floors[k] = rowFloor t.store.floors[k])
        ∧ (∀ i : Fin 4, t.keys.slots[i] = ⟨t.store.keyState i, c.keys[i].1, c.keys[i].2⟩)
        ∧ t.keys.burn = none
        ∧ t.runNumber = (if s.runNumber = 65535 then 1 else s.runNumber + 1)
        ∧ ∃ rep, t.report = some rep ∧ rep.runNumber = t.runNumber ∧ rep.cause = s.resetCause ∧ rep.tally = ⟨0, 0, 0, 0⟩) ∧
    (∀ c, t.store.sealed = true → t.store.loadable = some c →
      let loaded : State :=
        { s with
          load := .none, store := t.store, cfg := c.cfg, synth := synthOf s.straps.bypass c
          keys :=
            { slots := Vector.ofFn fun i => ⟨t.store.keyState i, c.keys[i].1, c.keys[i].2⟩
              floors := t.store.floors.map rowFloor, burn := none }
          regions := c.regions, pairs := pairsOf c.regions
          pulse :=
            if 1000 * c.cfg.holdPulse ≤ s.sinceReset then .stopped else .running (1000 * c.cfg.holdPulse - s.sinceReset) }
      let run := loaded.runStart s.resetCause
      t = ({ run with up := { s.up with mode := if s.up.select = true then s.up.mode else .relaying } }).arbitrate)) ∧
  (∀ (reads : Bool) (s : State),
   s.load = .running reads → s.pins.ctrlHold = true → s.pulse = .startup →
     ∃ t, exec .loadComplete s = .next t ∧
       (t.store.sealed = false ∨ t.store.loadable = none → t.pulse = .stopped) ∧
       (∀ c, t.store.sealed = true → t.store.loadable = some c →
         t.pulse =
           if 1000 * c.cfg.holdPulse ≤ s.sinceReset then .stopped else .running (1000 * c.cfg.holdPulse - s.sinceReset)))

/-- The clock the load settles on: the loop locks exactly at legal settings with CLKBYP low, at f_ref × M / (N × P), else the part runs in
bypass at f_ref; the check time is 1 200 000 µs·MHz / f_core, rounded up. -/
def Obligations.TheLoadSettlesTheClock : Prop :=
  ∀ (strap : Bool) (c : LoadedConfig), 8 ≤ c.fRef → c.fRef ≤ 40 →
    let y := synthOf strap c
    let pre : ℚ := (c.fRef : ℚ) / c.n
    let vco : ℚ := pre * c.m
    let core : ℚ := vco / c.p
    let legal : Prop :=
      1 ≤ c.n ∧ c.n ≤ 16 ∧ 8 ≤ c.m ∧ c.m ≤ 127 ∧ 1 ≤ c.p ∧ c.p ≤ 8 ∧ 4 ≤ pre ∧ 200 ≤ vco ∧ vco ≤ 480 ∧ core ≤ 120
    (y.bypass = false ↔ strap = false ∧ legal)
      ∧ (y.coreNum : ℚ) / y.coreDen = (if y.bypass = true then (c.fRef : ℚ) else core)
      ∧ (y.checkTime : ℤ) = ⌈(1200000 : ℚ) / ((y.coreNum : ℚ) / y.coreDen)⌉

/-- The checks over the region table hold exactly when every region lies within the flash and apart from the others, its fields are
present as its gate asks, its role and policy go together, the pairs are pairs as R5 asks, and the recovery region and the boot window are
as R6 asks. (The checks of one record's own bytes, that base and length are multiples of 4 KiB, that used slots precede empty ones and
that the unmapped policy is a legal one, are made where the bytes are read: regionOfBytes, regionsOfBytes, configOfBytes.) The pairs of a
table that passes are its pairs of home and alternate slot, in ascending order of the lower region index, with nothing selected yet. -/
def Obligations.TheRegionTableIsValidated : Prop :=
  (∀ (size : Nat) (rs : List Region) (boot : Byte), regionsChecked size rs boot = true ↔
    (∀ r ∈ rs, 4096 ≤ r.length ∧ r.base + r.length ≤ size
        ∧ (r.role.isSome = true ↔ r.gate ≠ .opened) ∧ (r.kind.isSome = true ↔ r.gate ≠ .opened)
        ∧ (r.priority.isSome = true ↔ r.gate ≠ .opened) ∧ (r.partner.isSome = true ↔ r.home.isSome = true)
        ∧ (r.gate ≠ .opened → 8192 ≤ r.length) ∧ (r.role = some .required → r.policy ≠ .free)
        ∧ (r.policy = .slot ↔ r.partner.isSome = true))
      ∧ rs.Pairwise (fun r r' => r.base + r.length ≤ r'.base)
      ∧ (∀ (i : Nat) (r : Region) (q : Nat), rs[i]? = some r → r.partner = some q →
          q ≠ i ∧ ∃ r' : Region, rs[q]? = some r' ∧ r'.partner = some i ∧ r.length = r'.length ∧ r.base % 65536 = 0 ∧ r.length % 65536 = 0
            ∧ r.gate = r'.gate ∧ r.role = r'.role ∧ r.kind = r'.kind ∧ r.priority = r'.priority ∧ r.gate ≠ .opened
            ∧ (r.home = some true ↔ r'.home ≠ some true))
      ∧ (pairsOf rs).length ≤ 4
      ∧ (∀ i r, rs[i]? = some r → r.role = some .recovery →
          r.gate = .hold ∧ r.policy = .locked ∧ r.partner = none ∧ r.base % 65536 = 0 ∧ r.length % 65536 = 0
            ∧ boot ≠ 0xFF ∧ boot.toNat ≠ i
            ∧ (∀ i' r', rs[i']? = some r' → r'.role = some .recovery → i' = i)
            ∧ ∃ b, rs[boot.toNat]? = some b ∧ b.gate = .hold ∧ b.length = r.length ∧ b.base % 65536 = 0 ∧ b.length % 65536 = 0)
      ∧ (boot ≠ 0xFF → ∃ r ∈ rs, r.role = some .recovery)) ∧
  (∀ (size : Nat) (rs : List Region) (boot : Byte), regionsChecked size rs boot = true →
    (∀ p : Pair, p ∈ pairsOf rs ↔
      p = ⟨p.home, p.alternate, .none, .selecting, [], false⟩
        ∧ ∃ h, rs[p.home]? = some h ∧ h.partner = some p.alternate ∧ h.home = some true) ∧
    (pairsOf rs).Pairwise fun p q => min p.home p.alternate < min q.home q.alternate)

/-- BOOTSTRAP_READ_COMPLETE burns nothing yet: an image that fails its CRC or its validation, or that wants a burned cell unburned, leads
to FAULT; any other image leads to the burn of its first wanted cell, 0.5 ms, or to PROVISIONED where nothing is left to burn.
PROVISION_CELL_BURN_COMPLETE burns the cell in progress and goes on with the next wanted cell in store order; with the last, the part is
PROVISIONED. That what is left of the cell's time passes in every timer is the model's choice, log 3; that the store order is the order in
which R173 lists the groups of cells is the model's reading, log 14. -/
def Obligations.ProvisioningJudgesTheImageAndBurnsInStoreOrder : Prop :=
  (∀ (image : List Byte) (s : State), s.prov = .reading → image.length = 4096 →
     ∃ t, exec (.bootstrapReadComplete image) s = .next t ∧
       t = { s with
             permit := t.permit, prov := t.prov, pulse := t.pulse, pins := t.pins, cfg := t.cfg, alerts := t.alerts
             fp := { s.fp with holder := .free, select := false } } ∧
       ((imageCrcHolds image = false ∨ imageValid image = false
           ∨ ∃ c ∈ storeCells, s.store.burned c = true ∧ (storeOfImage image).burned c = false) →
         t.permit = .fault ∧ t.prov = .idle ∧ t.alerts = { s.alerts with fault := true }) ∧
       (imageCrcHolds image = true → imageValid image = true →
         (∀ c ∈ storeCells, s.store.burned c = true → (storeOfImage image).burned c = true) →
         t.cfg = s.cfg ∧ t.alerts = s.alerts ∧
           ((∃ c, s.store.IsNextBurn (storeOfImage image) (some c) ∧ t.permit = s.permit
               ∧ t.prov = .burning (storeOfImage image) c 500)
             ∨ (s.store.IsNextBurn (storeOfImage image) none ∧ t.permit = .provisioned ∧ t.prov = .idle)))) ∧
  (∀ (want : Store) (cell : StoreCell) (r : Nat) (s : State), s.prov = .burning want cell r →
     ∃ t, exec .provisionCellBurnComplete s = .next t ∧
       t = { s.elapse r with
             store := s.store.burn cell, prov := t.prov, permit := t.permit, pulse := t.pulse, pins := t.pins } ∧
       ((∃ c, (s.store.burn cell).IsNextBurn want (some c) ∧ t.permit = s.permit ∧ t.prov = .burning want c 500)
         ∨ ((s.store.burn cell).IsNextBurn want none ∧ t.permit = .provisioned ∧ t.prov = .idle)))

/-- No step unburns a cell of the store. -/
def Obligations.NoStepUnburnsACell : Prop := ∀ s t : State, step s = .next t → s.store.Keeps t.store

/-! ## The upstream port -/

/-- UPSTREAM_SELECT_ASSERT: in RELAYING mode a record is opened and the relay takes the flash, whatever held it; in PASS-THROUGH the
select passes to the flash, which has had no byte yet; DETACHED, nothing reaches it. That it changes nothing when asserted already is the
model's choice, log 1. -/
def Obligations.SelectAssertOpensATransaction : Prop :=
  ∀ s : State,
    (s.up.select = true → exec .upstreamSelectAssert s = .next s) ∧
    (s.up.select = false → s.up.mode = .relaying →
      exec .upstreamSelectAssert s = .next
        { s with
          up := { s.up with
            select := true, out := none
            tx := some
              { phase := .instruction, clocks := 0, entry := none, address := none, received := 0, captured := none, range := none
                flashSide := .notStarted, handling := .relay, k := 0, causes := ⟨false, false, false, false⟩, service := [] } }
          fp := { s.fp with holder := .relay, select := true, sent := [], shape := none } }) ∧
    (s.up.select = false → s.up.mode = .passThrough →
      exec .upstreamSelectAssert s = .next
        { s with up := { s.up with select := true, out := none }, fp := { s.fp with select := true, sent := [], shape := none } }) ∧
    (s.up.select = false → s.up.mode = .detached →
      exec .upstreamSelectAssert s = .next { s with up := { s.up with select := true, out := none } })

/-- An instruction byte of a class that is not judged at it, a SLEEP with the verifier idle and an allowed STATUS_WRITE are passed on to
the flash whole, and nothing else changes. Cut are the service byte, which waits for its tag; a BARRED byte, recorded as a violation; a
SLEEP while the verifier works, which records none; a STATUS_WRITE that the configuration refuses, which makes a write-disable pending: in
each the flash select is raised within the byte and none of it is sent whole. In PASS-THROUGH the byte reaches the flash and nothing is
judged; log 19 says what is kept of it. -/
def Obligations.AnInstructionByteIsPassedOnOrCut : Prop :=
  (∀ (b : Byte) (s : State) (x : Tx) (e : ClassEntry), s.up.tx = some x → x.phase = .instruction → s.entry b = e →
     e.cls ∈ [TxClass.read, .program, .eraseSector, .eraseBlock, .writeEnable, .writeDisable, .statusRead, .wake, .resume, .plain]
       ∨ (e.cls = .sleep ∧ s.queue = [] ∧ ∀ c : Fin 4, s.ctx c = none)
       ∨ (e.cls = .statusWrite ∧ s.cfg.statusAllow = true) →
     exec (.instructionByteComplete b) s = .next
       { s with
         up := { s.up with tx := some { x with entry := some e, phase := phaseAfter e.addrBytes e.dummy, flashSide := .running } }
         fp := { s.fp with sent := s.fp.sent ++ [b], shape := some e } }) ∧
  (∀ (b : Byte) (s : State) (x : Tx) (e : ClassEntry), s.up.tx = some x → x.phase = .instruction → s.entry b = e →
     ∃ t, exec (.instructionByteComplete b) s = .next t ∧
       (e.cls = .service →
         t = { s with
               up := { s.up with
                 tx := some { x with
                   entry := some e, phase := phaseAfter e.addrBytes e.dummy, handling := .serviceWait, flashSide := .ended } }
               fp := { s.fp with select := false } }) ∧
       (e.cls = .sleep → ¬ (s.queue = [] ∧ ∀ c : Fin 4, s.ctx c = none) →
         t = { s with
               up := { s.up with
                 tx := some { x with
                   entry := some e, phase := phaseAfter e.addrBytes e.dummy, handling := .truncated, flashSide := .ended } }
               fp := { s.fp with select := false } }) ∧
       (e.cls = .barred →
         t = { s with
               up := { s.up with
                 tx := some { x with
                   entry := some e, phase := phaseAfter e.addrBytes e.dummy, handling := .truncated, flashSide := .ended } }
               fp := { s.fp with select := false }
               violation := ⟨countUp s.violation.count, some ⟨.barred, none, .barred⟩⟩
               alerts := { s.alerts with violation := true }, pulse := t.pulse, pins := t.pins }) ∧
       (e.cls = .statusWrite → s.cfg.statusAllow = false →
         t = { s with
               up := { s.up with
                 tx := some { x with
                   entry := some e, phase := phaseAfter e.addrBytes e.dummy, handling := .truncated, flashSide := .ended } }
               fp := { s.fp with select := false, shadow := { s.fp.shadow with wdPending := true } }
               violation := ⟨countUp s.violation.count, some ⟨.statusWrite, none, .policy⟩⟩
               alerts := { s.alerts with violation := true }, pulse := t.pulse, pins := t.pins })) ∧
  (∀ (b : Byte) (s : State),
   s.up.tx = none → s.up.mode = .passThrough → s.up.select = true →
     exec (.instructionByteComplete b) s = .next { s with fp := { s.fp with sent := s.fp.sent ++ [b] } })

/-- An ERASE_CHIP is refused within its instruction byte when any byte of the flash is protected by the effective write policies of R110
to R112, and passed on whole when none is. -/
def Obligations.EraseChipIsJudgedOnTheWholeFlash : Prop :=
  ∀ (b : Byte) (s : State) (x : Tx) (e : ClassEntry), s.up.tx = some x → x.phase = .instruction → s.entry b = e →
    e.cls = .eraseChip →
    ∃ t, exec (.instructionByteComplete b) s = .next t ∧
      ((∃ a, a < 2 ^ s.cfg.geometry ∧ s.Protected a) →
        t = { s with
              up := { s.up with
                tx := some { x with
                  entry := some e, phase := phaseAfter e.addrBytes e.dummy, range := some (0, 2 ^ s.cfg.geometry)
                  handling := .truncated, flashSide := .ended } }
              fp := { s.fp with select := false, shadow := { s.fp.shadow with wdPending := true } }
              violation := ⟨countUp s.violation.count, some ⟨.eraseChip, none, .policy⟩⟩
              alerts := { s.alerts with violation := true }, pulse := t.pulse, pins := t.pins }) ∧
      ((∀ a, a < 2 ^ s.cfg.geometry → ¬ s.Protected a) →
        t = { s with
              up := { s.up with
                tx := some { x with
                  entry := some e, phase := phaseAfter e.addrBytes e.dummy, range := some (0, 2 ^ s.cfg.geometry)
                  flashSide := .running } }
              fp := { s.fp with sent := s.fp.sent ++ [b], shape := some e } })

/-- The address of a READ: the translation list is captured and the translated start address sent in the same field; one that a 3-byte
field cannot hold starts no flash-side transaction: the select that stood for the instruction byte rises with no address byte sent, the
model's choice, log 32. -/
def Obligations.AReadIsSentToItsTranslatedAddress : Prop :=
  ∀ (a : BitVec 32) (s : State) (x : Tx) (e : ClassEntry), s.up.tx = some x → x.phase = .address → x.entry = some e →
    e.cls = .read →
    let field := a.toNat % 2 ^ (8 * e.addrBytes)
    let p := translate s.trans (field % 2 ^ s.cfg.geometry)
    let x1 : Tx :=
      { x with
        address := some (BitVec.ofNat 32 field), received := e.addrBytes, captured := some s.trans
        phase := if e.dummy ≠ 0 then .dummy else .data }
    (e.addrBytes = 3 ∧ 2 ^ 24 ≤ p →
      exec (.addressComplete a) s = .next
        { s with
          up := { s.up with tx := some { x1 with handling := .noFlash, flashSide := .absent } }
          fp := { s.fp with select := false } }) ∧
    (¬ (e.addrBytes = 3 ∧ 2 ^ 24 ≤ p) →
      exec (.addressComplete a) s = .next
        { s with
          up := { s.up with tx := some x1 }
          fp := { s.fp with sent := s.fp.sent ++ beBytes e.addrBytes p } })

/-- The address of a PROGRAM, ERASE_SECTOR or ERASE_BLOCK: with `p` the translated address and `n` the page, sector or block size, the write
is refused for RANGE when a 3-byte field cannot hold `p`, for POLICY when any byte of the page, sector or block of `p` is protected, and
passed on whole otherwise. A refused write reaches the flash without its last address byte. That of a write refused for RANGE the flash
has had the two bytes of bits 23 to 8 of `p` is the model's choice, log 33; that a write to a slot which a flip has rejected before its
address completion is judged as a write to that slot is the model's reading, log 39. -/
def Obligations.AWriteReachesTheFlashWholeOnlyWhereNothingIsProtected : Prop :=
  ∀ (a : BitVec 32) (s : State) (x : Tx) (e : ClassEntry) (n : Nat), s.up.tx = some x → x.phase = .address → x.entry = some e →
    (e.cls = .program ∧ n = 256) ∨ (e.cls = .eraseSector ∧ n = 4096) ∨ (e.cls = .eraseBlock ∧ n = 65536) →
    let field := a.toNat % 2 ^ (8 * e.addrBytes)
    let l := field % 2 ^ s.cfg.geometry
    let p := translate s.trans l
    let x1 : Tx :=
      { x with
        address := some (BitVec.ofNat 32 field), received := e.addrBytes, captured := some s.trans
        phase := if e.dummy ≠ 0 then .dummy else .data, range := some (p - p % n, n) }
    let tooHigh : Prop := e.addrBytes = 3 ∧ 2 ^ 24 ≤ p
    let hit : Prop := ∃ y, p - p % n ≤ y ∧ y < p - p % n + n ∧ s.Protected y
    ∃ t, exec (.addressComplete a) s = .next t ∧
      (tooHigh ∨ hit →
        ∃ cause, (tooHigh → cause = .range) ∧ (¬ tooHigh → cause = .policy) ∧
          t = { s with
                up := { s.up with tx := some { x1 with handling := .truncated, flashSide := .ended } }
                fp := { s.fp with
                  select := false, sent := s.fp.sent ++ (beBytes e.addrBytes p).take (e.addrBytes - 1)
                  shadow := { s.fp.shadow with wdPending := true } }
                violation := ⟨countUp s.violation.count, some ⟨e.cls, some l, cause⟩⟩
                alerts := { s.alerts with violation := true }, pulse := t.pulse, pins := t.pins }) ∧
      (¬ tooHigh → ¬ hit →
        t = { s with
              up := { s.up with tx := some x1 }
              fp := { s.fp with sent := s.fp.sent ++ beBytes e.addrBytes p } })

/-- The address of any other class is passed on as received; the dummy clocks once counted bring the data. In PASS-THROUGH an address
reaches the flash as it comes, four bytes (log 19). -/
def Obligations.OtherAddressesAndDummyClocksPass : Prop :=
  (∀ (a : BitVec 32) (s : State) (x : Tx) (e : ClassEntry), s.up.tx = some x → x.phase = .address → x.entry = some e →
    e.cls ∉ [TxClass.read, .program, .eraseSector, .eraseBlock] →
    exec (.addressComplete a) s = .next
      { s with
        up := { s.up with
          tx := some
            { x with
              address := some (BitVec.ofNat 32 (a.toNat % 2 ^ (8 * e.addrBytes))), received := e.addrBytes
              phase := if e.dummy ≠ 0 then .dummy else .data } }
        fp := { s.fp with sent := s.fp.sent ++ beBytes e.addrBytes (a.toNat % 2 ^ (8 * e.addrBytes)) } }) ∧
  (∀ (s : State) (x : Tx), s.up.tx = some x → x.phase = .dummy →
    exec .dummyCountComplete s = .next { s with up := { s.up with tx := some { x with phase := .data } } }) ∧
  (∀ (a : BitVec 32) (s : State),
   s.up.tx = none → s.up.mode = .passThrough → s.up.select = true →
     exec (.addressComplete a) s = .next { s with fp := { s.fp with sent := s.fp.sent ++ beBytes 4 a.toNat } })

/-- Each data byte of a relayed READ: with `p` the physical byte its logical address should reach and `f` the one the flash delivers, the
controller gets the flash's byte exactly when `p` is `f` and may be shown, else FFh, filled for CROSSING, for TAIL in a VERIFIED region,
for GATE in any other. -/
def Obligations.TheGateDecidesEachByteOfARead : Prop :=
  ∀ (b : Byte) (s : State) (x : Tx) (e : ClassEntry) (ws : List Window) (addr : BitVec 32),
    s.up.mode = .relaying → s.up.tx = some x → x.phase = .data → x.entry = some e → e.cls = .read → x.handling = .relay →
    x.captured = some ws → x.address = some addr →
    let size := 2 ^ s.cfg.geometry
    let start := addr.toNat % 2 ^ (8 * e.addrBytes) % size
    let p := translate ws ((start + x.k) % size)
    let f := (translate ws start + x.k) % size
    ∃ t, exec (.upstreamDataByte b) s = .next t ∧
      (p = f ∧ s.Showable p →
        t.up = ⟨s.up.select, .relaying, some { x with k := x.k + 1 }, some ⟨b, .flash⟩⟩) ∧
      (¬ (p = f ∧ s.Showable p) →
        ∃ cause, (p ≠ f → cause = .crossing)
          ∧ (p = f → (∃ i y, s.regionAt p = some i ∧ s.rt i = some y ∧ y.state = .verified) → cause = .tail)
          ∧ (p = f → ¬ (∃ i y, s.regionAt p = some i ∧ s.rt i = some y ∧ y.state = .verified) → cause = .gate)
          ∧ t = { s with
                  up := ⟨s.up.select, .relaying, some { x with k := x.k + 1, causes := x.causes.join cause },
                    some ⟨0xFF, .fill cause⟩⟩ })

/-- Every byte that a READ delivers from the flash to the controller is the flash's own, at the address the controller named, and lies in
unmapped space, in a region whose effective gate is OPEN, in one whose effective gate is OBSERVE and whose state is not REJECTED or STALE,
or in the signed extent of a VERIFIED region, as the records stand when it is delivered. -/
def Obligations.OnlyShowableBytesAreDelivered : Prop :=
  ∀ (b v : Byte) (s t : State) (x : Tx) (e : ClassEntry) (ws : List Window) (addr : BitVec 32),
    s.up.mode = .relaying → s.up.tx = some x → x.phase = .data → x.entry = some e → e.cls = .read → x.handling ≠ .truncated →
    x.captured = some ws → x.address = some addr →
    exec (.upstreamDataByte b) s = .next t → t.up.out = some ⟨v, .flash⟩ →
    let size := 2 ^ s.cfg.geometry
    let start := addr.toNat % 2 ^ (8 * e.addrBytes) % size
    let p := translate ws ((start + x.k) % size)
    v = b ∧ p = (translate ws start + x.k) % size ∧ s.Showable p

/-- A filled byte of a READ tells the controller, and leaves in the part, nothing of what the flash held: the state after it is one and
the same whatever byte the flash delivered. -/
def Obligations.AFilledByteRevealsNothing : Prop :=
  ∀ (b b' : Byte) (s : State) (x : Tx) (e : ClassEntry) (ws : List Window) (addr : BitVec 32),
    s.up.mode = .relaying → s.up.tx = some x → x.phase = .data → x.entry = some e → e.cls = .read →
    x.captured = some ws → x.address = some addr →
    (let size := 2 ^ s.cfg.geometry
     let start := addr.toNat % 2 ^ (8 * e.addrBytes) % size
     let p := translate ws ((start + x.k) % size)
     x.handling = .noFlash ∨ p ≠ (translate ws start + x.k) % size ∨ ¬ s.Showable p) →
    exec (.upstreamDataByte b) s = exec (.upstreamDataByte b') s

/-- Observation: a byte of a READ that is shown, at exactly the next payload position of a region under observation that is HASHING in
context `c`, the flash ready, enters the digest; before the last byte it changes nothing more. The last payload byte of a region whose own
attempt it is (unpaired, or a slot of a SELECTED or FAILED pair), or of a pair's candidate, seen so, completes its digest as one of a burst
would: the region is SIGNING, its entry goes to the signature list or straight to an idle signature unit, the pair stands, and a
candidate's context is kept, its digest dropped and nothing wanted, while another candidate waits. -/
def Obligations.AShownByteIsObservedAtItsExactPosition : Prop :=
  (∀ (b : Byte) (s : State) (x : Tx) (e : ClassEntry) (ws : List Window) (addr : BitVec 32) (i : Nat) (r : Region) (y : Runtime)
    (c : Fin 4) (z : Ctx) (d : Digest) (m : Recorded),
    s.up.mode = .relaying → s.up.tx = some x → x.phase = .data → x.entry = some e → e.cls = .read → x.handling = .relay →
    x.captured = some ws → x.address = some addr →
    s.region i = some r → s.rt i = some y → y.state = .hashing → y.context = some c → y.recorded = some m →
    y.progress + 1 < m.signedLength →
    s.ctx c = some z → z.phase = .payload → z.digest = some d →
    (z.owner = .region i ∨ ∃ j q, z.owner = .pair j ∧ s.pair j = some q ∧ q.selected = some i) →
    s.GateIs i r .observe → s.fp.shadow.power = .awake → s.fp.shadow.busy = .idle →
    (let size := 2 ^ s.cfg.geometry
     let start := addr.toNat % 2 ^ (8 * e.addrBytes) % size
     let p := translate ws ((start + x.k) % size)
     p = (translate ws start + x.k) % size ∧ s.regionAt p = some i ∧ p = r.base + 256 + y.progress) →
    exec (.upstreamDataByte b) s = .next
      { s with
        up := ⟨s.up.select, .relaying, some { x with k := x.k + 1 }, some ⟨b, .flash⟩⟩
        contexts := s.contexts.set c
          (some
            { z with
              digest := some (d.absorb b), nextRead := r.base + 256 + (y.progress + 1)
              wanted := m.signedLength - (y.progress + 1) })
        runtime := s.runtime.set i (some { y with progress := y.progress + 1, observed := true }) }) ∧
  (∀ (b : Byte) (s : State) (x : Tx) (e : ClassEntry) (ws : List Window) (addr : BitVec 32) (i : Nat) (r : Region) (y : Runtime)
    (c : Fin 4) (z : Ctx) (bs message : List Byte) (m : Recorded),
   s.up.mode = .relaying → s.up.tx = some x → x.phase = .data → x.entry = some e → e.cls = .read → x.handling = .relay →
     x.captured = some ws → x.address = some addr →
     s.region i = some r → s.rt i = some y → y.state = .hashing → y.context = some c → y.recorded = some m →
     y.progress + 1 = m.signedLength →
     s.ctx c = some z → z.phase = .payload → z.owner = .region i → z.store = [⟨i, bs⟩] →
     z.digest = some (Digest.begin.absorbAll message) →
     (∀ j p, s.pairOf i = some j → s.pair j = some p → p.state = .selected ∨ p.state = .failed) →
     s.GateIs i r .observe → s.fp.shadow.power = .awake → s.fp.shadow.busy = .idle →
     (∀ o ∈ s.queue, i ∉ s.ownerRegions o) → s.VerifierAtWork →
     (let size := 2 ^ s.cfg.geometry
      let start := addr.toNat % 2 ^ (8 * e.addrBytes) % size
      let p := translate ws ((start + x.k) % size)
      p = (translate ws start + x.k) % size ∧ s.regionAt p = some i ∧ p = r.base + 256 + y.progress) →
     let entry : SigEntry :=
       { region := i, digest := sha256 (message ++ [b]), signature := slice bs 16 64, keySlot := m.keySlot, runTag := y.runTag }
     ∃ t, exec (.upstreamDataByte b) s = .next t ∧
       t.up = ⟨s.up.select, .relaying, some { x with k := x.k + 1 }, some ⟨b, .flash⟩⟩ ∧
       t.rt i = some { y with state := .signing, progress := y.progress + 1, observed := true, context := none } ∧
       (∀ j, t.pair j = s.pair j) ∧
       (s.sigUnit ≠ .idle → t.sigUnit = s.sigUnit ∧ t.sigList = s.sigList ++ [entry]) ∧
       (s.sigUnit = .idle →
         t.sigList = [] ∧ t.sigUnit = .checking entry false s.keys.slots[m.keySlot].key s.synth.checkTime)) ∧
  (∀ (b : Byte) (s : State) (x : Tx) (e : ClassEntry) (ws : List Window) (addr : BitVec 32) (i : Nat) (r : Region) (y : Runtime)
    (c : Fin 4) (z : Ctx) (j : Nat) (p : Pair) (before behind : List Manifest) (bs message : List Byte) (m : Recorded),
   s.up.mode = .relaying → s.up.tx = some x → x.phase = .data → x.entry = some e → e.cls = .read → x.handling = .relay →
     x.captured = some ws → x.address = some addr →
     s.region i = some r → s.rt i = some y → y.state = .hashing → y.context = some c → y.recorded = some m →
     y.progress + 1 = m.signedLength →
     s.ctx c = some z → z.phase = .payload → z.owner = .pair j → s.pair j = some p → p.selected = some i →
     z.store = before ++ ⟨i, bs⟩ :: behind → (∀ n ∈ before, n.region ≠ i) →
     z.digest = some (Digest.begin.absorbAll message) →
     s.GateIs i r .observe → s.fp.shadow.power = .awake → s.fp.shadow.busy = .idle →
     (∀ o ∈ s.queue, p.home ∉ s.ownerRegions o ∧ p.alternate ∉ s.ownerRegions o) → s.VerifierAtWork →
     (let size := 2 ^ s.cfg.geometry
      let start := addr.toNat % 2 ^ (8 * e.addrBytes) % size
      let q := translate ws ((start + x.k) % size)
      q = (translate ws start + x.k) % size ∧ s.regionAt q = some i ∧ q = r.base + 256 + y.progress) →
     let entry : SigEntry :=
       { region := i, digest := sha256 (message ++ [b]), signature := slice bs 16 64, keySlot := m.keySlot, runTag := y.runTag }
     let waits (w : Slot) : Prop :=
       p.state = .tryingFirst ∧ (∃ f, p.order = [f, w]) ∧ s.rstate (p.region w) = some .header
     ∃ t, exec (.upstreamDataByte b) s = .next t ∧
       t.up = ⟨s.up.select, .relaying, some { x with k := x.k + 1 }, some ⟨b, .flash⟩⟩ ∧
       t.rt i = some { y with state := .signing, progress := y.progress + 1, observed := true, context := none } ∧
       t.pair j = some p ∧
       (s.sigUnit ≠ .idle → t.sigUnit = s.sigUnit ∧ t.sigList = s.sigList ++ [entry]) ∧
       (s.sigUnit = .idle →
         t.sigList = [] ∧ t.sigUnit = .checking entry false s.keys.slots[m.keySlot].key s.synth.checkTime) ∧
       (∀ w, waits w →
         t.ctx c = some { z with digest := none, nextRead := r.base + 256 + (y.progress + 1), wanted := 0 }
           ∧ t.rt (p.region w) = s.rt (p.region w)) ∧
       ((∀ w, ¬ waits w) → ∀ z', t.ctx c = some z' → z'.owner ≠ .pair j))

/-- Data bytes of the other classes and modes: the flash's own byte for STATUS_READ and PLAIN; in PASS-THROUGH the byte on both ports'
lines (log 19); FFh for RANGE in a READ without a flash side, for HALTED while DETACHED (log 35 for what is left of such a transaction
after the load), and from the undriven lines after a BARRED instruction; the bytes of the writing classes are passed on. The first data
byte of a relayed STATUS_READ is snooped while the shadow shows power AWAKE: busy and write-enable follow its configured bits, and a byte
that shows IDLE stops the poll wait; in any other power condition, and for any later byte, the shadow stands. -/
def Obligations.DataBytesOutsideTheGatePassUnchanged : Prop :=
  (∀ (b : Byte) (s : State),
     (s.up.mode = .detached → s.up.select = true →
       exec (.upstreamDataByte b) s = .next { s with up := { s.up with out := some ⟨0xFF, .fill .halted⟩ } }) ∧
     (s.up.mode = .passThrough → s.up.select = true →
       exec (.upstreamDataByte b) s = .next
         { s with up := { s.up with out := some ⟨b, .flash⟩ }, fp := { s.fp with sent := s.fp.sent ++ [b] } }) ∧
     (∀ x e, s.up.mode = .relaying → s.up.tx = some x → x.phase = .data → x.entry = some e →
       (e.cls = .plain → x.handling = .relay →
         exec (.upstreamDataByte b) s = .next
           { s with up := { s.up with tx := some { x with k := x.k + 1 }, out := some ⟨b, .flash⟩ } }) ∧
       (e.cls = .read → x.handling = .noFlash →
         exec (.upstreamDataByte b) s = .next
           { s with
             up := { s.up with
               tx := some { x with k := x.k + 1, causes := { x.causes with range := true } }
               out := some ⟨0xFF, .fill .range⟩ } }) ∧
       (e.cls ∈ [TxClass.program, .statusWrite] → x.handling = .relay →
         exec (.upstreamDataByte b) s = .next
           { s with
             up := { s.up with tx := some { x with k := x.k + 1 } }
             fp := { s.fp with sent := s.fp.sent ++ [b] } }) ∧
       (e.cls ≠ .service → e.cls ≠ .barred → x.handling = .truncated →
         exec (.upstreamDataByte b) s = .next { s with up := { s.up with tx := some { x with k := x.k + 1 } } }))) ∧
  (∀ (b : Byte) (s : State) (x : Tx) (e : ClassEntry),
     s.up.mode = .relaying → s.up.tx = some x → x.phase = .data → x.entry = some e → e.cls = .statusRead → x.handling = .relay →
     let busy := b.getLsbD s.cfg.busyBit.1
     let up : Upstream := { s.up with tx := some { x with k := x.k + 1 }, out := some ⟨b, .flash⟩ }
     (x.k = 0 ∧ s.fp.shadow.power = .awake →
       exec (.upstreamDataByte b) s = .next
         { s with
           up
           fp := { s.fp with
             shadow := { s.fp.shadow with
               busy := if busy = true then .busy else .idle
               writeEnable := if b.getLsbD s.cfg.latchBit.1 = true then .set else .clear }
             pollWait := if busy = true then s.fp.pollWait else none } }) ∧
     (¬ (x.k = 0 ∧ s.fp.shadow.power = .awake) → exec (.upstreamDataByte b) s = .next { s with up })) ∧
  (∀ (b : Byte) (s : State) (x : Tx) (e : ClassEntry),
   s.up.mode = .relaying → s.up.tx = some x → x.phase = .data → x.entry = some e → e.cls = .barred →
     exec (.upstreamDataByte b) s = .next
       { s with up := { s.up with tx := some { x with k := x.k + 1 }, out := some ⟨0xFF, .high⟩ } })

/-- The bytes of a service transaction: the byte after the service byte is compared with the tag, and a mismatch is passed on behind the
service byte as a plain transaction, its later bytes too; of a consumed transaction the request code and its argument are kept, and later
bytes are discarded. Where the part drives nothing and relays nothing back the controller reads FFh. FETCH is recognised with its code;
from the next byte on the response is driven: its length, its bytes in order, then FFh; the last body byte makes it fetched; an EMPTY
buffer drives 00h, then FFh. -/
def Obligations.ServiceBytesAreTakenAndTheResponseDriven : Prop :=
  (∀ (b : Byte) (s : State) (x : Tx) (e : ClassEntry),
     s.up.mode = .relaying → s.up.tx = some x → x.phase = .data → x.entry = some e → e.cls = .service →
     (x.handling = .serviceWait → b = s.cfg.tag →
       exec (.upstreamDataByte b) s = .next
         { s with up := { s.up with tx := some { x with k := x.k + 1, handling := .consumed } } }) ∧
     (x.handling = .serviceWait → b ≠ s.cfg.tag →
       exec (.upstreamDataByte b) s = .next
         { s with
           up := { s.up with tx := some { x with k := x.k + 1, handling := .relay, flashSide := .running } }
           fp := { s.fp with select := true, sent := [s.cfg.serviceByte, b], shape := some e } }) ∧
     (x.handling = .consumed → x.service = [] →
       exec (.upstreamDataByte b) s = .next
         { s with up := { s.up with tx := some { x with k := x.k + 1, service := [b] } } }) ∧
     (∀ code, x.handling = .consumed → x.service = [code] → code ∈ [(0x03 : Byte), 0x04, 0x06, 0x07] →
       exec (.upstreamDataByte b) s = .next
         { s with up := { s.up with tx := some { x with k := x.k + 1, service := [code, b] } } })) ∧
  ((∀ s : State, s.Listening →
     exec .fetch s = .next
       { s with
         up := ⟨true, .relaying,
           some
             { phase := .data, clocks := 0, entry := some (s.entry s.cfg.serviceByte), address := none, received := 0
               captured := none, range := none, flashSide := .ended, handling := .consumed, k := 2
               causes := ⟨false, false, false, false⟩, service := [0x0A] }, none⟩
         fp := { s.fp with holder := .relay, select := false, sent := [], shape := none } }) ∧
   (∀ (b : Byte) (s : State) (x : Tx) (e : ClassEntry) (n : Nat),
     s.up.mode = .relaying → s.up.tx = some x → x.phase = .data → x.entry = some e → e.cls = .service → x.handling = .consumed →
     x.service = [0x0A] → x.k = n + 2 →
     let up (v : Byte) : Upstream := { s.up with tx := some { x with k := n + 3 }, out := some ⟨v, .response⟩ }
     (s.response = none →
       exec (.upstreamDataByte b) s = .next { s with up := up (if n = 0 then 0 else 0xFF) }) ∧
     (∀ q, s.response = some q →
       (n = 0 → q.body ≠ [] →
         exec (.upstreamDataByte b) s = .next { s with up := up (BitVec.ofNat 8 q.body.length) }) ∧
       (∀ v, n ≠ 0 → q.body[n - 1]? = some v →
         exec (.upstreamDataByte b) s = .next
           { s with up := up v, response := some { q with fetched := q.fetched || decide (n = q.body.length) } }) ∧
       (q.body.length < n → exec (.upstreamDataByte b) s = .next { s with up := up 0xFF })))) ∧
  (∀ (b : Byte) (s : State) (x : Tx) (e : ClassEntry),
   s.up.mode = .relaying → s.up.tx = some x → x.phase = .data → x.entry = some e → e.cls = .service →
     let up : Upstream := { s.up with tx := some { x with k := x.k + 1 }, out := some ⟨0xFF, .high⟩ }
     (x.handling = .consumed →
         (∃ code, x.service = [code] ∧ code ∉ [(0x03 : Byte), 0x04, 0x06, 0x07, 0x0A]) ∨ 2 ≤ x.service.length →
       exec (.upstreamDataByte b) s = .next { s with up }) ∧
     (x.handling = .relay →
       exec (.upstreamDataByte b) s = .next { s with up, fp := { s.fp with sent := s.fp.sent ++ [b] } }))

/-- UPSTREAM_SELECT_RISE with nothing to hand on but the shadow's change: an accepted WRITE_ENABLE, WRITE_DISABLE, WAKE, RESUME or SLEEP
changes the shadow as R102 says, a truncated SLEEP framed as an accepted one sets sleep pending, and a transaction that is not accepted
changes no part of it; nor does a service transaction that was still waiting for its tag or was passed on, nor a consumed one that is off
a byte boundary or short, whose request is ignored and which leaves the response buffer as it was; the cause set goes to the tally, the
record is discarded and the flash is FREE. Within an instruction byte nothing is judged; DETACHED and PASS-THROUGH the select follows and
the mode becomes that of the permit state. That nothing changes with select high already is the model's choice, log 1. -/
def Obligations.SelectRiseJudgesAndEndsTheTransaction : Prop :=
  (∀ (clocks : Fin 8) (s : State) (x : Tx) (e : ClassEntry) (sh : Shadow),
   s.up.select = true → s.up.tx = some x → x.entry = some e →
      let whole : Prop := clocks = 0 ∧ x.phase ≠ .dummy
      let framed : Prop := whole ∧ x.received = e.addrBytes
      (framed ∧ x.handling = .relay ∧
          ((e.cls = .writeEnable ∧ sh = { s.fp.shadow with writeEnable := .set, wdPending := false })
            ∨ (e.cls = .writeDisable ∧ sh = { s.fp.shadow with writeEnable := .clear })
            ∨ (e.cls = .wake ∧ sh = { s.fp.shadow with power := .awake, sleepPending := false })
            ∨ (e.cls = .resume ∧ sh = { s.fp.shadow with busy := .busy })
            ∨ (e.cls = .sleep ∧ sh = { s.fp.shadow with power := .asleep, sleepPending := false })))
        ∨ (framed ∧ x.handling = .truncated ∧ e.cls = .sleep ∧ sh = { s.fp.shadow with sleepPending := true })
        ∨ (¬ framed ∧ x.handling ≠ .consumed ∧ sh = s.fp.shadow)
        ∨ (x.handling = .truncated ∧ e.cls ≠ .sleep ∧ sh = s.fp.shadow)
        ∨ (e.cls = .program ∧ x.k = 0 ∧ x.handling ≠ .consumed ∧ sh = s.fp.shadow)
        ∨ (e.cls ∈ [TxClass.read, .statusRead, .plain] ∧ x.handling ≠ .consumed ∧ sh = s.fp.shadow)
        ∨ (e.cls = .service ∧ (x.handling = .serviceWait ∨ x.handling = .relay) ∧ sh = s.fp.shadow)
        ∨ (x.handling = .consumed ∧ sh = s.fp.shadow
            ∧ (¬ whole ∨ x.service = [] ∨ ∃ code, x.service = [code] ∧ code ∈ [(0x03 : Byte), 0x04, 0x06, 0x07, 0x0A])) →
      exec (.upstreamSelectRise clocks) s = .next (s.ended x sh).arbitrate) ∧
  (∀ (clocks : Fin 8) (s : State),
     (s.up.select = false → exec (.upstreamSelectRise clocks) s = .next s) ∧
     (∀ x, s.up.select = true → s.up.tx = some x → x.entry = none → x.handling ≠ .consumed →
       exec (.upstreamSelectRise clocks) s = .next (s.ended x s.fp.shadow).arbitrate) ∧
     (s.up.select = true → s.up.tx = none → s.up.mode = .passThrough →
       exec (.upstreamSelectRise clocks) s = .next
         { s with up := { s.up with select := false, mode := s.permit.mode }, fp := { s.fp with select := false } }) ∧
     (s.up.select = true → s.up.tx = none → s.up.mode ≠ .passThrough →
       exec (.upstreamSelectRise clocks) s = .next { s with up := { s.up with select := false, mode := s.permit.mode } }))

/-- The select rise of an accepted write: with the shadow's write-enable CLEAR nothing follows; else the flash is marked busy, its
write-enable CLEAR and the pending write-disable cancelled, and a write without a range changes no region. -/
def Obligations.AnAcceptedWriteMarksTheFlashBusy : Prop :=
  ∀ (s : State) (x : Tx) (e : ClassEntry),
    s.up.select = true → s.up.tx = some x → x.entry = some e → x.phase ≠ .dummy → x.received = e.addrBytes → x.handling = .relay →
    e.cls ∈ [TxClass.program, .eraseSector, .eraseBlock, .eraseChip, .statusWrite] → (e.cls = .program → 0 < x.k) →
    (s.fp.shadow.writeEnable = .clear →
      exec (.upstreamSelectRise 0) s = .next (s.ended x s.fp.shadow).arbitrate) ∧
    (s.fp.shadow.writeEnable ≠ .clear → x.range = none →
      exec (.upstreamSelectRise 0) s = .next
        (s.ended x { s.fp.shadow with busy := .busy, writeEnable := .clear, wdPending := false }).arbitrate) ∧
    (s.fp.shadow.writeEnable ≠ .clear →
      ∃ t, exec (.upstreamSelectRise 0) s = .next t ∧
        t.fp.shadow = { s.fp.shadow with busy := .busy, writeEnable := .clear, wdPending := false })

/-- An accepted, effective write marks STALE each region it touches that is HEADER, HASHING, SIGNING, VERIFIED or REJECTED: its reason and
context absent, its recorded fields kept, its signature entry withdrawn; an UNCHECKED or STALE one it leaves. So for a region that is
unpaired or whose pair tries no candidate now, and the pair stands; of a slot of a SELECTING pair, which the write filter lets no write
reach, this is the model's choice, log 20. Of a pair at work, a written waiting candidate leaves the order and
the header store, and the context goes if the first candidate is SIGNING; a written candidate gives way to the waiting one, escalating an
OBSERVE pair, or with none waiting fails the pair. (The last two for a write that touches that one region.) -/
def Obligations.AnAcceptedWriteMarksStale : Prop :=
  (∀ (s : State) (x : Tx) (e : ClassEntry) (lo n i : Nat) (r : Region) (y : Runtime),
   s.up.select = true → s.up.tx = some x → x.entry = some e → x.phase ≠ .dummy → x.received = e.addrBytes → x.handling = .relay →
     e.cls ∈ [TxClass.program, .eraseSector, .eraseBlock, .eraseChip] → (e.cls = .program → 0 < x.k) →
     s.fp.shadow.writeEnable ≠ .clear → x.range = some (lo, n) →
     s.region i = some r → (∃ a, lo ≤ a ∧ a < lo + n ∧ r.holds a = true) →
     s.rt i = some y → (∀ o ∈ s.queue, i ∉ s.ownerRegions o) →
     (∀ j p, s.pair j = some p → p.home = i ∨ p.alternate = i →
       s.pairOf i = some j ∧ p.state ∈ [PairState.selecting, .selected, .failed]) →
     ∃ t, exec (.upstreamSelectRise 0) s = .next t ∧
       (∀ j, s.pairOf i = some j → t.pair j = s.pair j) ∧
       (y.state ∈ [RState.header, .hashing, .signing, .verified, .rejected] →
         t.rt i = some { y with state := .stale, reason := none, context := none }) ∧
       (y.state = .unchecked ∨ y.state = .stale → ∃ y', t.rt i = some y' ∧ y'.state = y.state ∧ y'.recorded = y.recorded) ∧
       (y.state = .signing →
         (∀ g ∈ t.sigList, g.region ≠ i) ∧ (∀ g w key q, t.sigUnit = .checking g w key q → g.region = i → w = true))) ∧
  (∀ (s : State) (x : Tx) (e : ClassEntry) (lo n i : Nat) (r : Region) (y : Runtime) (j : Nat) (p : Pair) (first second : Slot)
     (c : Fin 4) (z : Ctx),
   s.up.select = true → s.up.tx = some x → x.entry = some e → x.phase ≠ .dummy → x.received = e.addrBytes → x.handling = .relay →
     e.cls ∈ [TxClass.program, .eraseSector, .eraseBlock, .eraseChip] → (e.cls = .program → 0 < x.k) →
     s.fp.shadow.writeEnable ≠ .clear → x.range = some (lo, n) →
     s.region i = some r → (∃ a, lo ≤ a ∧ a < lo + n ∧ r.holds a = true) →
     (∀ i' r', s.region i' = some r' → (∃ a, lo ≤ a ∧ a < lo + n ∧ r'.holds a = true) → i' = i) →
     s.rt i = some y → y.state = .header → s.pairOf i = some j → s.pair j = some p → p.state = .tryingFirst →
     p.order = [first, second] → p.home ≠ p.alternate → p.region second = i → first ≠ second → p.selection = first.selection →
     s.ctxOf (.pair j) = some c → s.ctx c = some z → (∀ o ∈ s.queue, i ∉ s.ownerRegions o) →
     ∃ t, exec (.upstreamSelectRise 0) s = .next t ∧
       t.rt i = some { y with state := .stale, reason := none, context := none } ∧
       t.pair j = some { p with order := [first] } ∧
       (s.rstate (p.region first) ≠ some .signing →
         t.ctx c = some { z with store := z.store.filter fun m => decide (m.region ≠ i) }) ∧
       (s.rstate (p.region first) = some .signing → ∀ z', t.ctx c = some z' → z'.owner ≠ .pair j)) ∧
  (∀ (s : State) (x : Tx) (e : ClassEntry) (lo n i : Nat) (r : Region) (y : Runtime) (j : Nat) (p : Pair) (c : Fin 4) (z : Ctx),
   s.up.select = true → s.up.tx = some x → x.entry = some e → x.phase ≠ .dummy → x.received = e.addrBytes → x.handling = .relay →
     e.cls ∈ [TxClass.program, .eraseSector, .eraseBlock, .eraseChip] → (e.cls = .program → 0 < x.k) →
     s.fp.shadow.writeEnable ≠ .clear → x.range = some (lo, n) →
     s.region i = some r → (∃ a, lo ≤ a ∧ a < lo + n ∧ r.holds a = true) →
     (∀ i' r', s.region i' = some r' → (∃ a, lo ≤ a ∧ a < lo + n ∧ r'.holds a = true) → i' = i) →
     s.rt i = some y → y.state = .hashing ∨ y.state = .signing → s.pairOf i = some j → s.pair j = some p →
     p.home ≠ p.alternate → p.selected = some i → (∀ o ∈ s.queue, p.home ∉ s.ownerRegions o ∧ p.alternate ∉ s.ownerRegions o) →
     ∃ t, exec (.upstreamSelectRise 0) s = .next t ∧
       (p.state = .tryingFirst ∨ p.state = .tryingSecond →
         t.rt i = some { y with state := .stale, reason := none, context := none }
           ∧ (y.state = .signing → ∀ g ∈ t.sigList, g.region ≠ i)) ∧
       (p.state = .tryingSecond ∨ (p.state = .tryingFirst ∧ p.order.length = 1) →
         t.pair j = some { p with state := .failed, selection := .none } ∧
           (s.ctxOf (.pair j) = some c → ∀ z', t.ctx c = some z' → z'.owner ≠ .pair j)) ∧
       (∀ first second y' m r', p.state = .tryingFirst → p.order = [first, second] → p.region first = i → first ≠ second →
         s.rt (p.region second) = some y' → y'.state = .header → y'.recorded = some m → s.region (p.region second) = some r' →
         s.ctxOf (.pair j) = some c → s.ctx c = some z →
         t.pair j = some { p with
             state := .tryingSecond, selection := second.selection
             escalated := p.escalated || decide (s.pairGate p = some .observe) }
           ∧ t.rt (p.region second) = some { y' with state := .hashing, progress := 0, context := some c }
           ∧ t.ctx c = some { z with
               phase := .payload, digest := some (Digest.begin.absorbAll ((z.manifest (p.region second)).take 16))
               nextRead := r'.base + 256, wanted := m.signedLength }))

/-- The ports agree with the permit state and with each other after every step that finds them so; and after every step the byte the
controller sampled last is FFh unless it came from the flash or the response, if it was so before. -/
def Obligations.EveryStepKeepsThePortsInAgreement : Prop :=
  (∀ s t : State, s.PortsAgree → step s = .next t → t.PortsAgree) ∧
  (∀ s t : State, s.FillIsHigh → step s = .next t → t.FillIsHigh)

/-! ## Service requests -/

/-- A request command is the service transaction that carries it: select assertion, service byte, tag, request code, argument where there
is one, and select rise at a byte boundary leave the state that the command leaves. That the command stands for the whole transaction is
the model's reading: log 7, and for FETCH log 8. -/
def Obligations.ARequestIsItsServiceTransaction : Prop :=
  ∀ (s : State) (arg : Byte), s.Listening →
    (let e := s.entry s.cfg.serviceByte
     e.cls = .service ∧ e.addrBytes = 0 ∧ e.dummy = 0) →
    let opening : List Instr := [.upstreamSelectAssert, .instructionByteComplete s.cfg.serviceByte, .upstreamDataByte s.cfg.tag]
    execAll (opening ++ [.upstreamDataByte 0x01, .upstreamSelectRise 0]) s = exec .report s
      ∧ execAll (opening ++ [.upstreamDataByte 0x02, .upstreamSelectRise 0]) s = exec .peek s
      ∧ execAll (opening ++ [.upstreamDataByte 0x03, .upstreamDataByte arg, .upstreamSelectRise 0]) s = exec (.detail arg) s
      ∧ execAll (opening ++ [.upstreamDataByte 0x04, .upstreamDataByte arg, .upstreamSelectRise 0]) s = exec (.verify arg) s
      ∧ execAll (opening ++ [.upstreamDataByte 0x05, .upstreamSelectRise 0]) s = exec .restart s
      ∧ execAll (opening ++ [.upstreamDataByte 0x06, .upstreamDataByte arg, .upstreamSelectRise 0]) s = exec (.raiseFloor arg) s
      ∧ execAll (opening ++ [.upstreamDataByte 0x07, .upstreamDataByte arg, .upstreamSelectRise 0]) s = exec (.revoke arg) s
      ∧ execAll (opening ++ [.upstreamDataByte 0x0A]) s = exec .fetch s
      ∧ (arg ∉ knownCodes →
          execAll (opening ++ [.upstreamDataByte arg, .upstreamSelectRise 0]) s = exec (.unknownRequest arg) s)

/-- REPORT answers DONE with the run report data as they stood, clears the violation record and the alert causes RESULT_UNREAD and
VIOLATION, and changes no other record. PEEK answers DONE with the same data and changes no record but the response; so do DETAIL of a
verifiable region with its detail data, DETAIL of any other index with REFUSED_ARGUMENT and no data, and an unknown code with
REFUSED_ARGUMENT. -/
def Obligations.ReportsAnswerAndOnlyReportClears : Prop :=
  (∀ s : State, s.Listening → s.OutputsAgree →
     exec .report s = .next
       ({ s.served with
           violation := ⟨0, none⟩
           alerts := { s.alerts with resultUnread := false, violation := false }
           pins := { s.pins with alert := s.cfg.alertEnable && (s.alerts.denied || s.alerts.fault) }
           response := s.reply 0x01 0xFF 0 s.reportData }).arbitrate) ∧
  (∀ s : State, s.Listening →
     exec .peek s = .next ({ s.served with response := s.reply 0x02 0xFF 0 s.reportData }).arbitrate ∧
     (∀ (index : Byte) (r : Region) (y : Runtime), index.toNat ≤ 15 → s.region index.toNat = some r → r.gate ≠ .opened →
       s.rt index.toNat = some y →
       exec (.detail index) s = .next
         ({ s.served with response := s.reply 0x03 index 0 (s.detailData index.toNat y) }).arbitrate) ∧
     (∀ index : Byte, (15 < index.toNat ∨ ∀ r, s.region index.toNat = some r → r.gate = .opened) →
       exec (.detail index) s = .next ({ s.served with response := s.reply 0x03 index 5 [] }).arbitrate) ∧
     (∀ code : Byte, code ∉ knownCodes →
       exec (.unknownRequest code) s = .next ({ s.served with response := s.reply code 0xFF 5 [] }).arbitrate))

/-- The layout of R172: of the run report data the 20 fixed bytes, then for each verifiable region, in ascending index, 3 bytes of index
and flags, state and reason, and epoch, at most 68 in all; and the 25 bytes of the region detail data. (Log 34: the sequence stands in the
detail alone; log 37: the detail's flags where no pair is, and its two upper bits, are 0.) -/
def Obligations.TheReportIsLaidOut : Prop :=
  (∀ (s : State) (rep : Report), s.report = some rep → (∀ n, rep.duration = some n → n < 65536) →
    let d := s.reportData
    leNat (slice d 0 2) = rep.runNumber.toNat
      ∧ byteAt d 2 = (match rep.cause with | .power => 0 | .pin => 1 | .restart => 2)
      ∧ (s.permit = .verifying → byteAt d 3 = 0) ∧ (s.permit = .permitted → byteAt d 3 = 1) ∧ (s.permit = .denied → byteAt d 3 = 2)
      ∧ byteAt d 4 = (if rep.duration.isSome = true then 1 else 0)
      ∧ leNat (slice d 5 2) = rep.duration.getD 0
      ∧ slice d 7 4 = [BitVec.ofNat 8 rep.tally.range, BitVec.ofNat 8 rep.tally.crossing, BitVec.ofNat 8 rep.tally.tail,
          BitVec.ofNat 8 rep.tally.gate]
      ∧ byteAt d 11 = BitVec.ofNat 8 s.violation.count
      ∧ (s.violation.last = none → slice d 12 6 = [0, 0, 0xFF, 0xFF, 0xFF, 0xFF])
      ∧ slice d 18 2 = (match s.keys.burn with
          | none => [0, 0xFF]
          | some ⟨.floor k _, _⟩ => [1, BitVec.ofNat 8 k.1]
          | some ⟨.revoke i, _⟩ => [2, BitVec.ofNat 8 i.1])
      ∧ d.length = 20 + 3 * (s.runtime.countP Option.isSome)
      ∧ (s.runtime.length ≤ 16 → d.length ≤ 68)) ∧
  (∀ (s : State) (v : LastRefusal),
   s.violation.last = some v →
     let d := s.reportData
     (∀ k, [TxClass.program, .eraseSector, .eraseBlock, .eraseChip, .statusWrite, .barred][k]? = some v.cls → (byteAt d 12).toNat = k + 1)
       ∧ (∀ k, [RefusalCause.policy, .range, .barred][k]? = some v.cause → (byteAt d 13).toNat = k + 1)
       ∧ (∀ a, v.address = some a → a < 2 ^ 32 → leNat (slice d 14 4) = a)
       ∧ (v.address = none → slice d 14 4 = [0xFF, 0xFF, 0xFF, 0xFF])) ∧
  (∀ (s : State) (i : Nat) (y : Runtime),
   s.rt i = some y → i < 16 →
     let d := s.reportData
     let start := 20 + 3 * (s.runtime.take i).countP Option.isSome
     (byteAt d start).toNat % 16 = i
       ∧ (byteAt d start).getLsbD 4 = y.observed
       ∧ ((byteAt d start).getLsbD 5 = true ↔ ∃ j p, s.pairOf i = some j ∧ s.pair j = some p ∧ p.selected = some i)
       ∧ ((byteAt d start).getLsbD 6 = true ↔ ∃ j p, s.pairOf i = some j ∧ s.pair j = some p ∧ p.escalated = true)
       ∧ (byteAt d start).getLsbD 7 = (s.pairOf i).isSome
       ∧ (∀ k, stateCodes[k]? = some y.state → (byteAt d (start + 1)).toNat % 16 = k)
       ∧ (y.reason = none → (byteAt d (start + 1)).toNat / 16 = 0)
       ∧ (∀ k q, reasonCodes[k]? = some q → y.reason = some q → (byteAt d (start + 1)).toNat / 16 = k + 1)
       ∧ (y.recorded = none → byteAt d (start + 2) = 0xFF)
       ∧ (∀ m, y.recorded = some m → byteAt d (start + 2) = BitVec.ofNat 8 m.epoch)) ∧
  (∀ (s : State) (i : Nat) (y : Runtime),
   s.rt i = some y →
     let d := s.detailData i y
     d.length = 25
       ∧ (∀ k, stateCodes[k]? = some y.state → (byteAt d 0).toNat = k)
       ∧ (y.reason = none → byteAt d 1 = 0)
       ∧ (∀ k q, reasonCodes[k]? = some q → y.reason = some q → (byteAt d 1).toNat = k + 1)
       ∧ (byteAt d 2).getLsbD 0 = y.recorded.isSome ∧ (byteAt d 2).getLsbD 1 = y.context.isSome
       ∧ (byteAt d 2).getLsbD 2 = y.observed ∧ (byteAt d 2).getLsbD 3 = (s.pairOf i).isSome
       ∧ ((byteAt d 2).getLsbD 4 = true ↔ ∃ j p, s.pairOf i = some j ∧ s.pair j = some p ∧ p.home = i)
       ∧ ((byteAt d 2).getLsbD 5 = true ↔ ∃ j p, s.pairOf i = some j ∧ s.pair j = some p ∧ p.escalated = true)
       ∧ (byteAt d 2).toNat < 64
       ∧ (y.recorded = none → slice d 3 10 = [0, 0, 0, 0, 0xFF, 0xFF, 0, 0, 0, 0])
       ∧ (∀ m, y.recorded = some m → m.signedLength < 2 ^ 32 → m.sequence < 2 ^ 32 →
           leNat (slice d 3 4) = m.signedLength ∧ byteAt d 7 = BitVec.ofNat 8 m.epoch ∧ byteAt d 8 = BitVec.ofNat 8 m.keySlot.1
             ∧ leNat (slice d 9 4) = m.sequence)
       ∧ (y.progress < 2 ^ 32 → leNat (slice d 13 4) = y.progress)
       ∧ byteAt d 17 = (match y.context with | some c => BitVec.ofNat 8 c.1 | none => 0xFF)
       ∧ leNat (slice d 18 2) = y.runTag.toNat
       ∧ (s.pairOf i = none → slice d 20 5 = [0xFF, 0xFF, 0, 0xFF, 0xFF])
       ∧ (∀ j p, s.pairOf i = some j → s.pair j = some p →
           (∀ k, pairStateCodes[k]? = some p.state → (byteAt d 20).toNat = k)
             ∧ (∀ k, selectionCodes[k]? = some p.selection → (byteAt d 21).toNat = k)
             ∧ byteAt d 22 = BitVec.ofNat 8 p.order.length
             ∧ byteAt d 23 = (match p.order[0]? with | some f => BitVec.ofNat 8 (p.region f) | none => 0xFF)
             ∧ byteAt d 24 = (match p.order[1]? with | some f => BitVec.ofNat 8 (p.region f) | none => 0xFF)))

/-- VERIFY of an index that names no verifiable region, of a region whose attempt is in progress or whose pair is SELECTING (whatever the
slot's own state: the model's choice, log 36), and of a region that is no allowed target is turned away, and changes nothing but the response. VERIFY of an allowed target is STARTED: its
record is set afresh, and with a context free it is granted the lowest one and moves to HEADER in the same event, else it waits at the
queue's tail; no other region's record changes. -/
def Obligations.VerifyIsTurnedAwayOrStartsANewAttempt : Prop :=
  (∀ (index : Byte) (s : State),
   s.Listening →
      ((15 < index.toNat ∨ ∀ r, s.region index.toNat = some r → r.gate = .opened) →
        exec (.verify index) s = .next ({ s.served with response := s.reply 0x04 index 5 [0xFF] }).arbitrate) ∧
      (∀ r y, index.toNat ≤ 15 → s.region index.toNat = some r → r.gate ≠ .opened → s.rt index.toNat = some y →
        (y.state ∈ [RState.queued, .header, .hashing, .signing]
            ∨ (∃ j p, s.pairOf index.toNat = some j ∧ s.pair j = some p ∧ p.state = .selecting) →
          exec (.verify index) s = .next ({ s.served with response := s.reply 0x04 index 2 [y.state.code] }).arbitrate) ∧
        (y.state ∈ [RState.unchecked, .verified, .rejected, .stale] →
          (∀ j p, s.pairOf index.toNat = some j → s.pair j = some p →
            p.state ≠ .selecting ∧ p.state ≠ .failed ∧ (p.state = .selected → p.selected = some index.toNat)) →
          (s.pairOf index.toNat = none →
            r.role ≠ some .optional ∧
              (r.role = some .required → s.permit ≠ .denied ∨ (y.state ≠ .rejected ∧ y.state ≠ .stale))) →
          exec (.verify index) s = .next ({ s.served with response := s.reply 0x04 index 4 [y.state.code] }).arbitrate))) ∧
  (∀ (index : Byte) (s : State) (r : Region) (y : Runtime), s.Listening → s.VerifierAtWork →
     index.toNat ≤ 15 → s.region index.toNat = some r → r.gate ≠ .opened → s.rt index.toNat = some y →
     y.state ∈ [RState.unchecked, .verified, .rejected, .stale] →
     ((s.pairOf index.toNat = none ∧
         (r.role = some .optional
           ∨ (r.role = some .required ∧ s.permit = .denied ∧ (y.state = .rejected ∨ y.state = .stale))))
       ∨ ∃ j p, s.pairOf index.toNat = some j ∧ s.pair j = some p
           ∧ (p.state = .failed ∨ (p.state = .selected ∧ p.selected ≠ some index.toNat))) →
     ∃ t, exec (.verify index) s = .next t ∧
       (∀ k, k ≠ index.toNat → t.rt k = s.rt k) ∧
       ((∀ c : Fin 4, (s.ctx c).isSome = true) →
         t.rt index.toNat = some ⟨.queued, none, none, 0, none, false, s.runNumber⟩
           ∧ t.queue = s.queue ++ [.region index.toNat] ∧ t.contexts = s.contexts
           ∧ t.response = s.reply 0x04 index 1 [1]) ∧
       (∀ c : Fin 4, s.ctx c = none → (∀ d : Fin 4, d < c → (s.ctx d).isSome = true) →
         t.rt index.toNat = some ⟨.header, none, none, 0, some c, false, s.runNumber⟩
           ∧ t.queue = []
           ∧ t.contexts = s.contexts.set c
               (some ⟨.region index.toNat, .header, none, [⟨index.toNat, []⟩], r.base, 80, s.runNumber⟩)
           ∧ t.response = s.reply 0x04 index 1 [2]))

/-- A run start sets up the new run: the next run number, 65535 followed by 1; a report of its cause with an empty tally; the verify queue
in R37's order, its first four entries granted contexts in the same event, their regions in HEADER, the others in QUEUED; each pair
afresh; no entry on the translation list or the signature list; a check in flight withdrawn; the deadline started. A run with nothing
REQUIRED ends at once in PERMITTED, any other is VERIFYING. With a held image and the line released it asserts CTRL_HOLD_N and starts the
hold pulse, also where the run ends at once: the model's choice, log 30. RESTART is such a run start in PERMITTED and DENIED and answers
with the new run number; in VERIFYING it is refused and changes nothing but the response; that the request is taken before the flash port
chooses its next own instruction is the model's choice, log 38. -/
def Obligations.ARestartSetsTheRunAfresh : Prop :=
  (∀ (cause : StartCause) (s : State) (order : List Owner),
   s.IsRunOrder order →
      let t := s.runStart cause
      let held : Prop :=
        (∃ i r, s.region i = some r ∧ r.gate = .hold ∧ (r.role = some .required ∨ r.role = some .optional) ∧ s.pairOf i = none)
          ∨ ∃ j p, s.pair j = some p ∧ s.pairGate p = some .hold ∧ (s.pairRole p = some .required ∨ s.pairRole p = some .optional)
      let nothingRequired : Prop :=
        (∀ i r, s.region i = some r → s.pairOf i = none → r.role ≠ some .required)
          ∧ ∀ j p, s.pair j = some p → s.pairRole p ≠ some .required
      t.runNumber = (if s.runNumber = 65535 then 1 else s.runNumber + 1)
        ∧ t.runNumber ≠ 0
        ∧ (nothingRequired → t.permit = .permitted)
        ∧ (¬ nothingRequired → t.permit = .verifying)
        ∧ t.report = some ⟨t.runNumber, cause, if t.permit = .verifying then none else some 0, ⟨0, 0, 0, 0⟩⟩
        ∧ t.queue = order.drop 4
        ∧ (∀ c : Fin 4, order.length ≤ c.1 → t.ctx c = none)
        ∧ (∀ (c : Fin 4) i r, order[c.1]? = some (.region i) → s.region i = some r →
            t.ctx c = some ⟨.region i, .header, none, [⟨i, []⟩], r.base, 80, t.runNumber⟩
              ∧ t.rt i = some ⟨.header, none, none, 0, some c, false, t.runNumber⟩)
        ∧ (∀ (c : Fin 4) j p h, order[c.1]? = some (.pair j) → s.pair j = some p → s.region p.home = some h →
            t.ctx c = some ⟨.pair j, .header, none, [⟨p.home, []⟩, ⟨p.alternate, []⟩], h.base, 160, t.runNumber⟩
              ∧ (s.TablesSound →
                  t.rt p.home = some ⟨.header, none, none, 0, some c, false, t.runNumber⟩
                    ∧ t.rt p.alternate = some ⟨.header, none, none, 0, some c, false, t.runNumber⟩))
        ∧ (∀ i, Owner.region i ∈ order.drop 4 → t.rt i = some ⟨.queued, none, none, 0, none, false, t.runNumber⟩)
        ∧ (∀ i r, s.region i = some r → r.gate = .opened → t.rt i = none)
        ∧ (∀ i r, s.region i = some r → r.gate ≠ .opened →
            ∃ x, t.rt i = some x ∧ x.reason = none ∧ x.recorded = none ∧ x.progress = 0 ∧ x.observed = false
              ∧ x.runTag = t.runNumber ∧ ((x.state = .queued ∧ x.context = none) ∨ (x.state = .header ∧ x.context.isSome = true)))
        ∧ (∀ j p, s.pair j = some p →
            t.pair j = some { p with selection := .none, state := .selecting, order := [], escalated := false })
        ∧ t.trans = [] ∧ t.recoverySwap = false ∧ t.sigList = []
        ∧ (∀ e w key r, s.sigUnit = .checking e w key r → t.sigUnit = .checking e true key r)
        ∧ (s.sigUnit = .idle → t.sigUnit = .idle)
        ∧ t.deadline = (if t.permit = .permitted ∨ s.cfg.deadline = 0 then none else some (100000 * s.cfg.deadline))
        ∧ t.alerts = { s.alerts with denied := false, resultUnread := s.alerts.resultUnread || decide (t.permit = .permitted) }
        ∧ (held → s.pins.ctrlHold = false → t.pins.ctrlHold = true ∧ t.pulse = .running (1000 * s.cfg.holdPulse))
        ∧ (¬ held ∨ s.pins.ctrlHold = true → t.pulse = s.pulse)) ∧
  (∀ s : State, s.Listening →
     (s.permit ≠ .verifying →
       exec .restart s = .next
         ({ s.served.runStart .restart with
             response := s.reply 0x05 0xFF 1 (leBytes 2 (if s.runNumber = 65535 then 1 else s.runNumber + 1).toNat) }).arbitrate) ∧
     (s.permit = .verifying →
       exec .restart s = .next ({ s.served with response := s.reply 0x05 0xFF 4 (leBytes 2 s.runNumber.toNat) }).arbitrate))

/-- RAISE_FLOOR, judged in the order of R144: the permit state, the kind, a running image of the kind, a burn in progress, a floor at or
above the target; then the burn of the first cell begins. -/
def Obligations.RaiseFloorIsJudgedInOrder : Prop :=
  ∀ (kind : Byte) (s : State), s.Listening →
    (s.permit ≠ .permitted →
      (7 < kind.toNat →
        exec (.raiseFloor kind) s = .next ({ s.served with response := s.reply 0x06 kind 4 [0xFF, 0xFF] }).arbitrate) ∧
      (∀ k : Fin 8, kind.toNat = k →
        exec (.raiseFloor kind) s = .next
          ({ s.served with response := s.reply 0x06 kind 4 [BitVec.ofNat 8 s.keys.floors[k], 0xFF] }).arbitrate)) ∧
    (s.permit = .permitted → 7 < kind.toNat →
      exec (.raiseFloor kind) s = .next ({ s.served with response := s.reply 0x06 kind 5 [0xFF, 0xFF] }).arbitrate) ∧
    (∀ k : Fin 8, s.permit = .permitted → kind.toNat = k →
      let floor := BitVec.ofNat 8 s.keys.floors[k]
      ((∀ i r m, s.RunningImage i r m → r.kind ≠ some k) →
        exec (.raiseFloor kind) s = .next ({ s.served with response := s.reply 0x06 kind 5 [floor, 0xFF] }).arbitrate) ∧
      (∀ i r m, s.RunningImage i r m → r.kind = some k →
        (∀ i' r' m', s.RunningImage i' r' m' → r'.kind = some k → m.epoch ≤ m'.epoch) →
        let answer (status : Byte) := s.reply 0x06 kind status [floor, BitVec.ofNat 8 m.epoch]
        (s.keys.burn.isSome = true →
          exec (.raiseFloor kind) s = .next ({ s.served with response := answer 7 }).arbitrate) ∧
        (s.keys.burn = none → m.epoch ≤ s.keys.floors[k] →
          exec (.raiseFloor kind) s = .next ({ s.served with response := answer 3 }).arbitrate) ∧
        (s.keys.burn = none → s.keys.floors[k] < m.epoch →
          exec (.raiseFloor kind) s = .next
            ({ s.served with
                keys := { s.keys with burn := some ⟨.floor k m.epoch, 500⟩ }, response := answer 1 }).arbitrate)))

/-- REVOKE, judged in the order of R147: the permit state, the slot, an EMPTY slot, a REVOKED slot, a burn in progress, a required image
that would be stranded (R148); then the burn of the revocation cell begins. -/
def Obligations.RevokeIsJudgedInOrder : Prop :=
  ∀ (slot : Byte) (s : State), s.Listening →
    (s.permit ≠ .permitted →
      (3 < slot.toNat →
        exec (.revoke slot) s = .next ({ s.served with response := s.reply 0x07 slot 4 [0xFF] }).arbitrate) ∧
      (∀ k : Fin 4, slot.toNat = k →
        exec (.revoke slot) s = .next
          ({ s.served with response := s.reply 0x07 slot 4 [s.keys.slots[k].state.code] }).arbitrate)) ∧
    (s.permit = .permitted → 3 < slot.toNat →
      exec (.revoke slot) s = .next ({ s.served with response := s.reply 0x07 slot 5 [0xFF] }).arbitrate) ∧
    (∀ k : Fin 4, s.permit = .permitted → slot.toNat = k →
      let stranded : Prop :=
        (∃ i r m, s.RunningImage i r m ∧ m.keySlot = k)
          ∨ ∃ i r q, s.region i = some r ∧ r.role = some .required ∧ r.kind = some q
              ∧ ∀ o : Fin 4, o ≠ k → ¬ (s.keys.slots[o].state = .active ∧ s.keys.slots[o].allowed.getLsbD q = true)
      (s.keys.slots[k].state = .empty →
        exec (.revoke slot) s = .next ({ s.served with response := s.reply 0x07 slot 5 [0] }).arbitrate) ∧
      (s.keys.slots[k].state = .revoked →
        exec (.revoke slot) s = .next ({ s.served with response := s.reply 0x07 slot 3 [2] }).arbitrate) ∧
      (s.keys.slots[k].state = .active → s.keys.burn.isSome = true →
        exec (.revoke slot) s = .next ({ s.served with response := s.reply 0x07 slot 7 [1] }).arbitrate) ∧
      (s.keys.slots[k].state = .active → s.keys.burn = none → stranded →
        exec (.revoke slot) s = .next ({ s.served with response := s.reply 0x07 slot 6 [1] }).arbitrate) ∧
      (s.keys.slots[k].state = .active → s.keys.burn = none → ¬ stranded →
        exec (.revoke slot) s = .next
          ({ s.served with
              keys := { s.keys with burn := some ⟨.revoke k, 500⟩ }, response := s.reply 0x07 slot 1 [1] }).arbitrate))

/-! ## The verifier -/

/-- A byte of a burst that ends neither a manifest nor a payload is stored at the end of the manifest being gathered, the first of the
context's that is not whole, or enters the digest of the region being hashed and counts in its progress; the burst goes on, and nothing
else changes. -/
def Obligations.ABurstByteGoesToItsContext : Prop :=
  ∀ (b : Byte) (s : State) (c : Fin 4) (left : Nat) (z : Ctx), s.fp.holder = .own (.burst c left) → s.ctx c = some z →
    let after (t : State) : State :=
      if left ≤ 1 then ({ t with fp := { s.fp with holder := .free, select := false } }).arbitrate
      else { t with fp := { s.fp with holder := .own (.burst c (left - 1)) } }
    (∀ before i bs behind, z.phase = .header → z.store = before ++ ⟨i, bs⟩ :: behind → bs.length < 79 →
      (∀ m ∈ before, m.bytes.length = 80 ∧ m.region ≠ i) → (∀ m ∈ behind, m.region ≠ i) →
      exec (.burstByteReceived b) s = .next
        (after
          { s with
            contexts := s.contexts.set c
              (some
                { z with
                  store := before ++ ⟨i, bs ++ [b]⟩ :: behind, nextRead := z.nextRead + 1, wanted := z.wanted - 1 }) })) ∧
    (∀ i r y m d, z.phase = .payload → z.digest = some d → s.region i = some r → s.rt i = some y → y.state = .hashing →
      y.context = some c → y.recorded = some m → y.progress + 1 < m.signedLength →
      (z.owner = .region i ∨ ∃ j q, z.owner = .pair j ∧ s.pair j = some q ∧ q.selected = some i) →
      exec (.burstByteReceived b) s = .next
        (after
          { s with
            contexts := s.contexts.set c
              (some
                { z with
                  digest := some (d.absorb b), nextRead := r.base + 256 + (y.progress + 1)
                  wanted := m.signedLength - (y.progress + 1) })
            runtime := s.runtime.set i (some { y with progress := y.progress + 1 }) }))

/-- The six header checks in their order, the first that fails giving the reason (R25 to R29), and the fields a pass records (R30). -/
def Obligations.TheHeaderChecksAreMadeInOrder : Prop :=
  ∀ (slots : Vector KeySlot 4) (floors : Vector Nat 8) (r : Region) (m : List Byte) (k : Fin 8), r.kind = some k → m.length = 80 →
    let blank : Prop := ∀ i < 16, byteAt m i = 0xFF
    let format : Prop :=
      byteAt m 0 = 0x53 ∧ byteAt m 1 = 0x47 ∧ byteAt m 2 = 0x4E ∧ byteAt m 3 = 0x31 ∧ byteAt m 4 = 1 ∧ (byteAt m 7).toNat ≤ 63
    let kind : Prop := (byteAt m 5).toNat = k
    let key (i : Fin 4) : Prop := (byteAt m 6).toNat = i ∧ slots[i].state = .active ∧ slots[i].allowed.getLsbD k = true
    let epoch : Prop := floors[k] ≤ (byteAt m 7).toNat
    let len := leNat (slice m 12 4)
    let length : Prop := 1 ≤ len ∧ 256 + len ≤ r.length
    let verdict := judgeManifest slots floors r m
    (blank → verdict = .fail .blank) ∧
    (¬ blank → ¬ format → verdict = .fail .format) ∧
    (¬ blank → format → ¬ kind → verdict = .fail .kind) ∧
    (¬ blank → format → kind → (∀ i, ¬ key i) → verdict = .fail .key) ∧
    (∀ i, ¬ blank → format → kind → key i → ¬ epoch → verdict = .fail .epoch) ∧
    (∀ i, ¬ blank → format → kind → key i → epoch → ¬ length → verdict = .fail .length) ∧
    (∀ i, ¬ blank → format → kind → key i → epoch → length →
      verdict = .pass ⟨len, (byteAt m 7).toNat, leNat (slice m 8 4), i⟩)

/-- The 80th byte of the manifest of a region whose own attempt it is, an unpaired region or a slot of a SELECTED or FAILED pair, brings its
header check: a pass records the fields and begins the digest with the 16 field bytes, the region HASHING; a failure rejects the region
with its reason and releases the context; the pair, if any, stands. Of a pair, the home slot's 80th
byte brings the home slot's check and the context goes on to the alternate slot; the alternate slot's brings its check and the ranking:
with no slot passed the pair is FAILED and its context released, else the first candidate is selected and HASHING, and the translation
list follows the selection. That a home slot which is STALE is out of the ranking as one that failed its check is the model's choice, log
20. -/
def Obligations.TheLastManifestByteBringsTheHeaderCheck : Prop :=
  (∀ (b : Byte) (s : State) (c : Fin 4) (left : Nat) (z : Ctx) (i : Nat) (bs : List Byte) (r : Region) (y : Runtime),
    s.fp.holder = .own (.burst c left) → s.ctx c = some z → z.phase = .header → z.owner = .region i → z.store = [⟨i, bs⟩] →
    bs.length = 79 → z.runTag = s.runNumber → s.region i = some r → s.rt i = some y → y.state = .header → y.context = some c →
    (∀ j p, s.pairOf i = some j → s.pair j = some p → p.state = .selected ∨ p.state = .failed) →
    (∀ o ∈ s.queue, i ∉ s.ownerRegions o) →
    ∃ t, exec (.burstByteReceived b) s = .next t ∧
      (∀ j, t.pair j = s.pair j) ∧
      (∀ m, judgeManifest s.keys.slots s.keys.floors r (bs ++ [b]) = .pass m →
        t.rt i = some { y with state := .hashing, recorded := some m, progress := 0 } ∧
        t.ctx c = some { z with
          phase := .payload, digest := some (Digest.begin.absorbAll (bs.take 16)), store := [⟨i, bs ++ [b]⟩]
          nextRead := r.base + 256, wanted := m.signedLength }) ∧
      (∀ reason, judgeManifest s.keys.slots s.keys.floors r (bs ++ [b]) = .fail reason →
        t.rt i = some { y with state := .rejected, reason := some reason, context := none } ∧
        ∀ z', t.ctx c = some z' → z'.owner ≠ .region i)) ∧
  (∀ (b : Byte) (s : State) (c : Fin 4) (left : Nat) (z : Ctx) (j : Nat) (p : Pair) (bh ba : List Byte) (h a : Region) (y : Runtime),
   s.fp.holder = .own (.burst c left) → s.ctx c = some z → z.phase = .header → z.owner = .pair j → s.pair j = some p →
     p.home ≠ p.alternate → z.store = [⟨p.home, bh⟩, ⟨p.alternate, ba⟩] → bh.length = 79 → ba.length < 80 → z.runTag = s.runNumber →
     s.region p.home = some h → s.region p.alternate = some a → s.rt p.home = some y → y.state = .header → y.context = some c →
     (∀ o ∈ s.queue, p.home ∉ s.ownerRegions o) →
     ∃ t, exec (.burstByteReceived b) s = .next t ∧
       t.pair j = some p ∧
       t.ctx c = some { z with
         store := [⟨p.home, bh ++ [b]⟩, ⟨p.alternate, ba⟩], nextRead := a.base, wanted := z.wanted - 1 } ∧
       (∀ m, judgeManifest s.keys.slots s.keys.floors h (bh ++ [b]) = .pass m → t.rt p.home = some { y with recorded := some m }) ∧
       (∀ reason, judgeManifest s.keys.slots s.keys.floors h (bh ++ [b]) = .fail reason →
         t.rt p.home = some { y with state := .rejected, reason := some reason, context := none })) ∧
  (∀ (b : Byte) (s : State) (c : Fin 4) (left : Nat) (z : Ctx) (j : Nat) (p : Pair) (bh ba : List Byte) (h a : Region)
     (yh ya : Runtime),
   s.fp.holder = .own (.burst c left) → s.ctxOf (.pair j) = some c → s.ctx c = some z → z.phase = .header → z.owner = .pair j →
     s.pair j = some p → p.home ≠ p.alternate → z.store = [⟨p.home, bh⟩, ⟨p.alternate, ba⟩] → bh.length = 80 → ba.length = 79 →
     z.runTag = s.runNumber → s.region p.home = some h → s.region p.alternate = some a → s.rt p.home = some yh →
     s.rt p.alternate = some ya → ya.state = .header → ya.context = some c →
     (∀ o ∈ s.queue, p.home ∉ s.ownerRegions o ∧ p.alternate ∉ s.ownerRegions o) →
     let verdict := judgeManifest s.keys.slots s.keys.floors a (ba ++ [b])
     let homePassed (m : Recorded) : Prop := yh.state = .header ∧ yh.recorded = some m
     let homeOut : Prop := yh.state = .rejected ∨ yh.state = .stale
     ∃ t, exec (.burstByteReceived b) s = .next t ∧
       (∀ reason, verdict = .fail reason →
         t.rt p.alternate = some { ya with state := .rejected, reason := some reason, context := none }) ∧
       (∀ reason, homeOut → verdict = .fail reason →
         t.pair j = some { p with order := [], state := .failed, selection := .none } ∧ ∀ z', t.ctx c = some z' → z'.owner ≠ .pair j) ∧
       (∀ first rest m f y,
         (∃ mh ma, homePassed mh ∧ verdict = .pass ma ∧
             ((mh.sequence < ma.sequence ∧ first = Slot.alternate ∧ rest = [Slot.home] ∧ m = ma)
               ∨ (ma.sequence ≤ mh.sequence ∧ first = .home ∧ rest = [.alternate] ∧ m = mh)))
           ∨ (homePassed m ∧ (∃ reason, verdict = .fail reason) ∧ first = .home ∧ rest = [])
           ∨ (homeOut ∧ verdict = .pass m ∧ first = .alternate ∧ rest = []) →
         f = (if first = .home then h else a) → y = (if first = .home then yh else ya) →
         t.pair j = some { p with order := first :: rest, state := .tryingFirst, selection := first.selection }
           ∧ t.rt (p.region first) = some { y with state := .hashing, recorded := some m, progress := 0, context := some c }
           ∧ t.ctx c = some { z with
               store := [⟨p.home, bh⟩, ⟨p.alternate, ba ++ [b]⟩], phase := .payload
               digest := some (Digest.begin.absorbAll ((if first = .home then bh else ba).take 16))
               nextRead := f.base + 256, wanted := m.signedLength }
           ∧ ((∀ w ∈ t.trans, w.cause ≠ .recovery) →
               (first = .alternate → exchanges h.base a.base h.length .pair (some j) t.trans)
                 ∧ (first = .home → ∀ w ∈ t.trans, w.ofPair j = false))))

/-- The last payload byte of a region completes its digest: the region is SIGNING, and an entry with the SHA-256 digest of all that was
absorbed, the manifest's signature and its key slot goes to the tail of the signature list, or straight to an idle signature unit. So for
a region whose own attempt it is, an unpaired region or a slot of a SELECTED or FAILED pair, whose context is released; and for the
candidate of a pair, whose context is kept, its digest dropped and nothing wanted, while the other candidate waits in HEADER, and released
when none waits. The pair stands. -/
def Obligations.TheLastPayloadByteCompletesTheDigest : Prop :=
  (∀ (b : Byte) (s : State) (c : Fin 4) (left : Nat) (z : Ctx) (i : Nat) (bs : List Byte) (y : Runtime) (m : Recorded)
    (message : List Byte),
    s.fp.holder = .own (.burst c left) → s.ctx c = some z → z.phase = .payload → z.owner = .region i → z.store = [⟨i, bs⟩] →
    z.digest = some (Digest.begin.absorbAll message) →
    s.rt i = some y → y.state = .hashing → y.context = some c → y.recorded = some m → y.progress + 1 = m.signedLength →
    (∀ j p, s.pairOf i = some j → s.pair j = some p → p.state = .selected ∨ p.state = .failed) →
    (∀ o ∈ s.queue, i ∉ s.ownerRegions o) → s.VerifierAtWork →
    let entry : SigEntry :=
      { region := i, digest := sha256 (message ++ [b]), signature := slice bs 16 64, keySlot := m.keySlot, runTag := y.runTag }
    ∃ t, exec (.burstByteReceived b) s = .next t ∧
      t.rt i = some { y with state := .signing, progress := y.progress + 1, context := none } ∧
      (∀ j, t.pair j = s.pair j) ∧
      (∀ z', t.ctx c = some z' → z'.owner ≠ .region i) ∧
      (s.sigUnit ≠ .idle → t.sigUnit = s.sigUnit ∧ t.sigList = s.sigList ++ [entry]) ∧
      (s.sigUnit = .idle →
        t.sigList = [] ∧ t.sigUnit = .checking entry false s.keys.slots[m.keySlot].key s.synth.checkTime)) ∧
  (∀ (b : Byte) (s : State) (c : Fin 4) (left : Nat) (z : Ctx) (j i : Nat) (p : Pair) (before behind : List Manifest) (bs : List Byte)
    (r : Region) (y : Runtime) (m : Recorded) (message : List Byte),
    s.fp.holder = .own (.burst c left) → s.ctx c = some z → z.phase = .payload → z.owner = .pair j → s.pair j = some p →
    p.selected = some i → z.store = before ++ ⟨i, bs⟩ :: behind → (∀ n ∈ before, n.region ≠ i) →
    z.digest = some (Digest.begin.absorbAll message) → s.region i = some r →
    s.rt i = some y → y.state = .hashing → y.context = some c → y.recorded = some m → y.progress + 1 = m.signedLength →
    (∀ o ∈ s.queue, p.home ∉ s.ownerRegions o ∧ p.alternate ∉ s.ownerRegions o) → s.VerifierAtWork →
    let entry : SigEntry :=
      { region := i, digest := sha256 (message ++ [b]), signature := slice bs 16 64, keySlot := m.keySlot, runTag := y.runTag }
    let waits (w : Slot) : Prop :=
      p.state = .tryingFirst ∧ (∃ f, p.order = [f, w]) ∧ s.rstate (p.region w) = some .header
    ∃ t, exec (.burstByteReceived b) s = .next t ∧
      t.rt i = some { y with state := .signing, progress := y.progress + 1, context := none } ∧
      t.pair j = some p ∧
      (s.sigUnit ≠ .idle → t.sigUnit = s.sigUnit ∧ t.sigList = s.sigList ++ [entry]) ∧
      (s.sigUnit = .idle →
        t.sigList = [] ∧ t.sigUnit = .checking entry false s.keys.slots[m.keySlot].key s.synth.checkTime) ∧
      (∀ w, waits w →
        t.ctx c = some { z with digest := none, nextRead := r.base + 256 + (y.progress + 1), wanted := 0 }
          ∧ t.rt (p.region w) = s.rt (p.region w)) ∧
      ((∀ w, ¬ waits w) → ∀ z', t.ctx c = some z' → z'.owner ≠ .pair j))

/-- SHA-256, absorbed byte by byte, is the block-by-block hash of the padded message. The algorithm is that of the public standard the
spec names, log 9. -/
def Obligations.TheDigestIsTheHashOfThePaddedBlocks : Prop :=
  ∀ (message : List Byte) (blocks : List (List Byte)),
    (∀ block ∈ blocks, block.length = 64) →
    (∃ zeros : Nat, zeros < 64 ∧
      blocks.flatten = message ++ 0x80 :: List.replicate zeros 0 ++ beBytes 8 (8 * message.length)) →
    let w := blocks.foldl shaCompress shaInitial
    sha256 message = w.a ++ w.b ++ w.c ++ w.d ++ w.e ++ w.f ++ w.g ++ w.h

/-- SIGNATURE_CHECK_COMPLETE of a check not withdrawn, of the current run, for a region in SIGNING that is unpaired or a slot of a SELECTED
or FAILED pair: PASS makes it VERIFIED, FAIL REJECTED for SIGNATURE, the pair stands, and the unit takes the oldest waiting entry. The result of a withdrawn check, of another run's check, and of a
check whose region is no longer SIGNING is discarded: no runtime record and no pair record changes. -/
def Obligations.ACheckResultIsAppliedOrDiscarded : Prop :=
  (∀ (s : State) (g : SigEntry) (key : List Byte) (r : Nat) (y : Runtime),
     s.sigUnit = .checking g false key r → g.runTag = s.runNumber → s.rt g.region = some y → y.state = .signing →
     (∀ j p, s.pairOf g.region = some j → s.pair j = some p → p.state = .selected ∨ p.state = .failed) →
     (∀ o ∈ s.queue, g.region ∉ s.ownerRegions o) →
     ∃ t, exec .signatureCheckComplete s = .next t ∧
       (∀ j, t.pair j = s.pair j) ∧
       (checkSignature key g.digest g.signature = true →
         t.rt g.region = some { y with state := .verified, reason := none }) ∧
       (checkSignature key g.digest g.signature = false →
         t.rt g.region = some { y with state := .rejected, reason := some .signature, context := none }) ∧
       (s.sigList = [] → t.sigUnit = .idle ∧ t.sigList = []) ∧
       (∀ g' rest, s.sigList = g' :: rest →
         t.sigUnit = .checking g' false s.keys.slots[g'.keySlot].key s.synth.checkTime ∧ t.sigList = rest)) ∧
  (∀ (s : State) (g : SigEntry) (withdrawn : Bool) (key : List Byte) (r : Nat),
     s.sigUnit = .checking g withdrawn key r → s.VerifierAtWork →
     withdrawn = true ∨ g.runTag ≠ s.runNumber ∨ s.rstate g.region ≠ some .signing →
     ∃ t, exec .signatureCheckComplete s = .next t ∧ t.runtime = s.runtime ∧ t.pairs = s.pairs)

/-- The candidate order of a pair: the passed slot of the higher sequence first, the home slot first on equal sequences, a slot that did
not pass left out. The check result for the first candidate of a pair with a waiting second one: PASS selects the pair and leaves the
other slot UNCHECKED; FAIL moves the selection to the other slot, whose digest begins, and escalates an OBSERVE pair. For a candidate
behind which none waits: PASS selects the pair, FAIL leaves it FAILED with selection NONE. That a STALE slot is left out of the order as a
REJECTED one is the model's choice, log 20. -/
def Obligations.APairTriesItsCandidatesInOrder : Prop :=
  (∀ (s : State) (p : Pair) (h a : Runtime) (mh ma : Recorded), s.rt p.home = some h → s.rt p.alternate = some a →
     (h.state = .header → a.state = .header → h.recorded = some mh → a.recorded = some ma →
       (mh.sequence < ma.sequence → s.rank p = [.alternate, .home]) ∧
       (ma.sequence ≤ mh.sequence → s.rank p = [.home, .alternate])) ∧
     (h.state = .header → h.recorded = some mh → a.state = .rejected ∨ a.state = .stale → s.rank p = [.home]) ∧
     (a.state = .header → a.recorded = some ma → h.state = .rejected ∨ h.state = .stale → s.rank p = [.alternate]) ∧
     (h.state = .rejected ∨ h.state = .stale → a.state = .rejected ∨ a.state = .stale → s.rank p = [])) ∧
  (∀ (s : State) (g : SigEntry) (key : List Byte) (rem : Nat) (y y' : Runtime) (j : Nat) (p : Pair) (first second : Slot) (c : Fin 4)
     (z : Ctx) (r : Region) (m : Recorded),
     s.sigUnit = .checking g false key rem → g.runTag = s.runNumber → s.rt g.region = some y → y.state = .signing →
     s.pairOf g.region = some j → s.pair j = some p → p.state = .tryingFirst → p.order = [first, second] → first ≠ second →
     p.home ≠ p.alternate → p.region first = g.region → p.selection = first.selection →
     s.rt (p.region second) = some y' → y'.state = .header → y'.recorded = some m → s.region (p.region second) = some r →
     s.ctxOf (.pair j) = some c → s.ctx c = some z →
     (∀ o ∈ s.queue, g.region ∉ s.ownerRegions o ∧ p.region second ∉ s.ownerRegions o) →
     ∃ t, exec .signatureCheckComplete s = .next t ∧
       (checkSignature key g.digest g.signature = true →
         t.pair j = some { p with state := .selected }
           ∧ t.rt g.region = some { y with state := .verified, reason := none, context := if y.context = some c then none else y.context }
           ∧ ∃ w, t.rt (p.region second) = some w ∧ w.state = .unchecked ∧ w.recorded = none ∧ w.context = none) ∧
       (checkSignature key g.digest g.signature = false →
         t.pair j = some { p with
             state := .tryingSecond, selection := second.selection
             escalated := p.escalated || decide (s.pairGate p = some .observe) }
           ∧ t.rt g.region = some { y with state := .rejected, reason := some .signature, context := none }
           ∧ t.rt (p.region second) = some { y' with state := .hashing, progress := 0, context := some c }
           ∧ t.ctx c = some { z with
               phase := .payload, digest := some (Digest.begin.absorbAll ((z.manifest (p.region second)).take 16))
               nextRead := r.base + 256, wanted := m.signedLength })) ∧
  (∀ (s : State) (g : SigEntry) (key : List Byte) (rem : Nat) (y : Runtime) (j : Nat) (p : Pair),
   s.sigUnit = .checking g false key rem → g.runTag = s.runNumber → s.rt g.region = some y → y.state = .signing →
      s.pairOf g.region = some j → s.pair j = some p → p.selected = some g.region →
      p.state = .tryingSecond ∨ (p.state = .tryingFirst ∧ p.order.length = 1) →
      (∀ o ∈ s.queue, g.region ∉ s.ownerRegions o) →
      ∃ t, exec .signatureCheckComplete s = .next t ∧
        (checkSignature key g.digest g.signature = true →
          t.pair j = some { p with state := .selected }
            ∧ ∃ y', t.rt g.region = some y' ∧ y'.state = .verified ∧ y'.reason = none ∧ y'.recorded = y.recorded) ∧
        (checkSignature key g.digest g.signature = false →
          t.pair j = some { p with state := .failed, selection := .none }
            ∧ t.rt g.region = some { y with state := .rejected, reason := some .signature, context := none }))

/-- DEADLINE_EXPIRY rejects, with reason DEADLINE, each unpaired REQUIRED region whose attempt is in progress and each slot in progress of
an unfinished REQUIRED pair, which fails; it leaves finished regions, and OPTIONAL and RECOVERY ones, in no worse state; the timer stops
and no entry of what it rejects is left on the queue. -/
def Obligations.DeadlineExpiryRejectsUnfinishedRequiredWork : Prop :=
  ∀ (s : State) (rem : Nat), s.deadline = some rem →
    ∃ t, exec .deadlineExpiry s = .next t ∧ t.deadline = none ∧
      (∀ i r y, s.region i = some r → r.role = some .required → s.rt i = some y → s.pairOf i = none →
        y.state ∈ [RState.queued, .header, .hashing, .signing] →
        (∃ y', t.rt i = some y' ∧ y'.state = .rejected ∧ y'.reason = some .deadline ∧ y'.context = none)
          ∧ Owner.region i ∉ t.queue ∧ ∀ g ∈ t.sigList, g.region ≠ i) ∧
      (∀ j p, s.pair j = some p → s.pairRole p = some .required → p.state ∈ [PairState.selecting, .tryingFirst, .tryingSecond] →
        (∃ p', t.pair j = some p' ∧ p'.state = .failed ∧ p'.selection = .none) ∧ Owner.pair j ∉ t.queue) ∧
      (∀ j p i r y, s.pair j = some p → s.pairRole p = some .required →
        p.state ∈ [PairState.selecting, .tryingFirst, .tryingSecond] → s.pairOf i = some j → s.region i = some r →
        r.role = some .required → s.rt i = some y → y.state ∈ [RState.queued, .header, .hashing, .signing] →
        (∀ o ∈ s.queue, i ∈ s.ownerRegions o → o = .pair j ∨ o = .region i) →
        (∃ y', t.rt i = some y' ∧ y'.state = .rejected ∧ y'.reason = some .deadline ∧ y'.context = none)
          ∧ ∀ g ∈ t.sigList, g.region ≠ i) ∧
      (∀ i r y, s.region i = some r → s.rt i = some y → (∀ o ∈ s.queue, i ∉ s.ownerRegions o) →
        r.role ≠ some .required ∨ y.state ∈ [RState.unchecked, .verified, .rejected, .stale] →
        ∃ y', t.rt i = some y' ∧ y'.state = y.state ∧ y'.reason = y.reason ∧ y'.recorded = y.recorded) ∧
      (s.permit = .verifying →
        (∃ i r y, s.region i = some r ∧ r.role = some .required ∧ s.rt i = some y ∧ s.pairOf i = none
            ∧ y.state ∈ [RState.queued, .header, .hashing, .signing]) →
        t.permit = .denied ∧ t.alerts.denied = true ∧ t.alerts.resultUnread = true)

/-- A region becomes VERIFIED in no step but the completion of its own signature check, not withdrawn and of the current run, whose signature
the check accepts under the key it read, the region being SIGNING. -/
def Obligations.OnlyAPassingCheckVerifiesARegion : Prop :=
  ∀ (s t : State) (i : Nat), step s = .next t → s.isVerified i = false → t.isVerified i = true →
    ∃ rest g key r, s.pending = .signatureCheckComplete :: rest ∧ s.sigUnit = .checking g false key r ∧ g.region = i
      ∧ g.runTag = s.runNumber ∧ s.rstate i = some .signing ∧ checkSignature key g.digest g.signature = true

/-- The runtime records keep their form through every step. -/
def Obligations.EveryStepKeepsTheRuntimeRecordsProper : Prop :=
  ∀ s t : State, s.RecordsProper → step s = .next t → t.RecordsProper

/-- No step leaves a context free while the queue waits, or the signature unit IDLE while its list does. -/
def Obligations.EveryStepKeepsTheVerifierAtWork : Prop :=
  ∀ s t : State, s.VerifierAtWork → step s = .next t → t.VerifierAtWork

/-- The translation list agrees with the pairs' selections and the recovery swap through every step; and through every step the recovery
swap stands in DENIED once the recovery region is VERIFIED. A step that installs it ends in DENIED with the recovery region VERIFIED and
the two entries that exchange it with the boot window on the list, and none of a pair that owns the boot window. -/
def Obligations.EveryStepKeepsTheWindowsInAgreement : Prop :=
  (∀ s t : State, s.WindowsAgree → step s = .next t → t.WindowsAgree) ∧
  (∀ (s t : State),
   s.WindowsAgree → s.SwapStands → step s = .next t → t.SwapStands) ∧
  (∀ (s t : State),
   step s = .next t → s.recoverySwap = false → t.recoverySwap = true →
      t.permit = .denied ∧
        ∃ k b rec boot, t.recoveryRegion = some k ∧ t.isVerified k = true ∧ t.region k = some rec ∧ t.cfg.bootWindow = some b
          ∧ t.region b = some boot
          ∧ exchanges boot.base rec.base boot.length .recovery none t.trans
          ∧ ∀ w ∈ t.trans, w.cause = .pair → ∀ j p, w.owner = some j → t.pair j = some p → p.home ≠ b ∧ p.alternate ≠ b)

/-- A swap exchanges its two windows and leaves every other address as the list had it, if no entry of the list lies across either. -/
def Obligations.ASwapExchangesItsWindows : Prop :=
  ∀ (a b len : Nat) (cause : WindowCause) (owner : Option Nat) (ws : List Window) (l : Nat),
    a + len ≤ b ∨ b + len ≤ a →
    (∀ w ∈ ws, (w.from_ + w.length ≤ a ∨ a + len ≤ w.from_) ∧ (w.from_ + w.length ≤ b ∨ b + len ≤ w.from_)) →
    let ws' := installSwap a b len cause owner ws
    (a ≤ l → l < a + len → translate ws' l = l - a + b) ∧
    (b ≤ l → l < b + len → translate ws' l = l - b + a) ∧
    (¬ (a ≤ l ∧ l < a + len) → ¬ (b ≤ l ∧ l < b + len) → translate ws' l = translate ws l)

/-! ## The permit controller -/

/-- The conditions of R153 and the hold conditions of R156, in each permit state. -/
def Obligations.ThePermitAndHoldConditions : Prop :=
  ∀ s : State,
    (s.permitCondition = true ↔ s.RequiredPassed) ∧ (s.denialCondition = true ↔ s.RequiredFailed) ∧
    (s.permit ∈ [PermitState.loading, .provisioning, .provisioned, .fault] → s.holdCondition = true) ∧
    (s.permit = .unprovisioned ∨ s.permit = .permitted → s.holdCondition = false) ∧
    (s.permit = .verifying → (s.holdCondition = false ↔ s.HeldPassed)) ∧
    (s.permit = .denied → (s.holdCondition = false ↔ s.recoverySwap = true))

/-- In VERIFYING, CTRL_HOLD_N is released only while every REQUIRED or OPTIONAL region whose effective gate is HOLD is VERIFIED, for a table
in which the slots of a pair agree on gate and role, as the validation asks. -/
def Obligations.TheHoldLineIsReleasedOnlyOnceTheHeldImagesPass : Prop :=
  ∀ (s : State) (i : Nat) (r : Region), s.OutputsAgree → s.permit = .verifying → s.pins.ctrlHold = false →
    s.region i = some r → r.role = some .required ∨ r.role = some .optional → s.GateIs i r .hold →
    (∀ j p, s.pairOf i = some j → s.pair j = some p → s.pairGate p = some r.gate ∧ s.pairRole p = r.role) →
    s.isVerified i = true

/-- HOLD_PULSE_EXPIRY stops the timer and leaves CTRL_HOLD_N asserted exactly while a hold condition holds; nothing else changes but the
timers, in which what was left of the pulse passes: the model's choice, log 3. -/
def Obligations.TheHoldPulseEnds : Prop :=
  ∀ (s : State) (r : Nat), s.pulse = .running r → s.OutputsAgree →
    exec .holdPulseExpiry s = .next
      { s.elapse r with pulse := .stopped, pins := { s.pins with ctrlHold := s.holdCondition } }

/-- The outputs agree with the records after every step that finds them so. -/
def Obligations.EveryStepKeepsTheOutputsInAgreement : Prop :=
  ∀ s t : State, s.OutputsAgree → step s = .next t → t.OutputsAgree

/-- A step that asserts CTRL_HOLD_N starts the hold pulse in full; a reset starts the start-up pulse. -/
def Obligations.EveryAssertionOfTheHoldLineLastsAPulse : Prop :=
  ∀ s t : State, s.OutputsAgree → s.PortsAgree → step s = .next t → s.pins.ctrlHold = false → t.pins.ctrlHold = true →
    t.pulse = .running (1000 * t.cfg.holdPulse) ∨ (t.permit = .loading ∧ t.pulse = .startup)

/-- PRINT_PERMIT is asserted by no step but one that leaves every REQUIRED region VERIFIED and every REQUIRED pair SELECTED with its
selected slot VERIFIED; and it stays true of PERMITTED that they are, through every step: kept together with what it rests on, the tables
a validated load leaves, the verify queue, the pairs' contexts and what a forwarded write may touch. Nor does the part stay in VERIFYING
once a decision is due: through every step it stays true of VERIFYING that neither has every required image passed nor one failed. -/
def Obligations.ThePrintPermitIsEarned : Prop :=
  (∀ s t : State, s.OutputsAgree → step s = .next t → s.pins.printPermit = false → t.pins.printPermit = true →
    t.permit = .permitted ∧ t.RequiredPassed) ∧
  (∀ (s t : State),
   s.PortsAgree → s.PermitSound → step s = .next t → t.PermitSound) ∧
  (∀ s t : State, s.DecisionMade → step s = .next t → t.DecisionMade)

/-- The moves of the permit state: to LOADING by a reset alone; out of LOADING by the load's completion; out of PROVISIONING by the
bootstrap read or a burn; from VERIFYING to PERMITTED or DENIED; from PERMITTED and DENIED into a new run; none out of UNPROVISIONED,
PROVISIONED and FAULT but a reset. The exit from VERIFYING to PERMITTED or DENIED is the run end: to PERMITTED every required image has
passed, to DENIED one has failed; the deadline is stopped, the report has the run's duration in whole milliseconds, 65535 for more,
RESULT_UNREAD is among the alert causes, and DENIED exactly on entry to DENIED. Through every step the deadline runs in VERIFYING only, a
running permit state has the report of its run, whose duration is present once VERIFYING is left, and the alert cause DENIED stands exactly
in DENIED. A RESTART that is taken in PERMITTED or DENIED completes in a run of the next run number. -/
def Obligations.ThePermitStateMovesAsItsTableSays : Prop :=
  (∀ s t : State, s.PortsAgree → step s = .next t → s.permit ≠ t.permit →
    (t.permit = .loading ∧ ∃ rest, (∃ m b r, s.pending = .powerOn m b r :: rest) ∨ s.pending = .resetNAssert :: rest)
      ∨ (s.permit = .loading ∧ ∃ rest, s.pending = .loadComplete :: rest)
      ∨ (s.permit = .provisioning ∧ (t.permit = .provisioned ∨ t.permit = .fault)
          ∧ ∃ rest, (∃ image, s.pending = .bootstrapReadComplete image :: rest) ∨ s.pending = .provisionCellBurnComplete :: rest)
      ∨ (s.permit = .verifying ∧ (t.permit = .permitted ∨ t.permit = .denied))
      ∨ ((s.permit = .permitted ∨ s.permit = .denied) ∧ t.permit.running = true
          ∧ ∃ rest, s.pending = .restart :: rest ∨ ∃ clocks, s.pending = .upstreamSelectRise clocks :: rest)) ∧
  (∀ s t : State, s.RunAgrees → step s = .next t → s.permit = .verifying → t.permit = .permitted ∨ t.permit = .denied →
    (t.permit = .permitted → t.RequiredPassed) ∧ (t.permit = .denied → t.RequiredFailed ∧ ¬ t.RequiredPassed) ∧
    t.deadline = none ∧ t.alerts.resultUnread = true ∧ (t.alerts.denied = true ↔ t.permit = .denied) ∧
    ∃ rep, t.report = some rep ∧ rep.runNumber = t.runNumber ∧ rep.duration = some (min (t.runElapsed / 1000) 65535)) ∧
  (∀ s t : State, s.PortsAgree → s.RunAgrees → step s = .next t → t.RunAgrees) ∧
  (∀ s : State, s.Listening → s.permit ≠ .verifying → ∃ t, exec .restart s = .next t ∧
    (t.permit = .verifying ∨ t.permit = .permitted) ∧
    t.runNumber = (if s.runNumber = 65535 then 1 else s.runNumber + 1) ∧ (∀ i r, s.region i = some r → t.region i = some r) ∧
    ∃ rep, t.report = some rep ∧ rep.cause = .restart ∧ rep.runNumber = t.runNumber)

/-! ## The flash port and the key store -/

/-- The own instructions' completions: the flash is FREE, the shadow follows (R128, R130, R131), a wake or a poll that shows BUSY starts
its wait. The waits' ends: with the wake wait power becomes AWAKE, with the poll wait a further poll may be due; what was left of the wait
passes in every timer (the model's choice, log 3). Nothing else changes but by the flash port's next choice. -/
def Obligations.OwnInstructionsAndWaitsComplete : Prop :=
  (∀ s : State,
     let freed : FlashPort := { s.fp with holder := .free, select := false }
     (s.fp.holder = .own .writeDisable →
       exec .writeDisableComplete s = .next
         ({ s with fp := { freed with shadow := { s.fp.shadow with writeEnable := .clear, wdPending := false } } }).arbitrate) ∧
     (s.fp.holder = .own .sleep →
       exec .sleepComplete s = .next
         ({ s with fp := { freed with shadow := { s.fp.shadow with power := .asleep, sleepPending := false } } }).arbitrate) ∧
     (∀ fromAsleep, s.fp.holder = .own (.wake fromAsleep) →
       exec .wakeComplete s = .next
         ({ s with
             fp := { freed with
               shadow := { s.fp.shadow with
                 sleepPending := s.fp.shadow.sleepPending || fromAsleep
                 power := if s.cfg.wakeTime = 0 then .awake else s.fp.shadow.power }
               wakeWait := if s.cfg.wakeTime = 0 then none else some s.cfg.wakeTime } }).arbitrate) ∧
     (∀ status : Byte, s.fp.holder = .own .poll →
       let busy := status.getLsbD s.cfg.busyBit.1
       exec (.statusPollComplete status) s = .next
         ({ s with
             fp := { freed with
               shadow := { s.fp.shadow with
                 busy := if busy = true then .busy else .idle
                 writeEnable := if status.getLsbD s.cfg.latchBit.1 = true then .set else .clear }
               pollWait := if busy = true then some (10 * s.cfg.pollInterval) else none } }).arbitrate)) ∧
  (∀ (s : State) (r : Nat),
     (s.fp.wakeWait = some r →
       exec .wakeWaitEnd s = .next
         ({ s.elapse r with
             fp := { (s.elapse r).fp with wakeWait := none, shadow := { s.fp.shadow with power := .awake } } }).arbitrate) ∧
     (s.fp.pollWait = some r →
       exec .pollWaitEnd s = .next ({ s.elapse r with fp := { (s.elapse r).fp with pollWait := none } }).arbitrate))

/-- The arbiter's choice (R129, R135), on a FREE flash in a running permit state: a write-disable, a wake, a poll, a burst, a sleep, the
first that is due; nothing when none is; and nothing while the flash is held or no run takes place. A context needs bytes while it wants
some and gathers manifests, or is in PAYLOAD for a region that is HASHING in it. The burst serves the first context that needs bytes after
the one last served; its length is the burst size, 256 × 2^b bytes, or what is left of the payload or of the manifest now gathered, if
that is less. -/
def Obligations.TheArbiterIssuesWhatIsDue : Prop :=
  ∀ s : State,
    let sh := s.fp.shadow
    let idle : Prop := s.queue = [] ∧ ∀ c : Fin 4, s.ctx c = none
    let needs (c : Fin 4) : Prop :=
      ∃ z, s.ctx c = some z ∧ 0 < z.wanted ∧
        (z.phase = .header
          ∨ z.phase = .payload ∧ ∃ i y, (z.owner = .region i ∨ ∃ j p, z.owner = .pair j ∧ s.pair j = some p ∧ p.selected = some i)
              ∧ s.rt i = some y ∧ y.state = .hashing ∧ y.context = some c)
    let reading : Prop := ∃ c : Fin 4, needs c
    let sleeping : Prop := sh.sleepPending = true ∧ idle ∧ sh.wdPending = false
    let demand : Prop := reading ∨ sh.wdPending = true ∨ sleeping
    let ready : Prop := sh.power = .awake ∧ sh.busy = .idle
    let issued (op : OwnOp) (b : Byte) : State :=
      { s with fp := { s.fp with holder := .own op, select := true, sent := [b], shape := some (s.entry b) } }
    (s.fp.holder ≠ .free ∨ s.permit.running = false → s.arbitrate = s) ∧
    (s.fp.holder = .free → s.permit.running = true →
      (sh.wdPending = true → ready → s.arbitrate = issued .writeDisable s.cfg.writeDisable) ∧
      (demand → sh.power ≠ .awake → s.fp.wakeWait = none →
        s.arbitrate = issued (.wake (sh.power == .asleep)) s.cfg.wake) ∧
      (demand → sh.power ≠ .awake → s.fp.wakeWait ≠ none → s.arbitrate = s) ∧
      (demand → sh.power = .awake → sh.busy ≠ .idle → s.fp.pollWait = none → s.arbitrate = issued .poll s.cfg.statusRead) ∧
      (demand → sh.power = .awake → sh.busy ≠ .idle → s.fp.pollWait ≠ none → s.arbitrate = s) ∧
      (∀ (c : Fin 4) (z : Ctx) (n : Nat), sh.wdPending = false → ready → needs c → s.ctx c = some z →
        (∀ d : Fin 4, (d - s.fp.lastServed - 1).val < (c - s.fp.lastServed - 1).val → ¬ needs d) →
        (z.phase = .payload ∧ n = min (256 * 2 ^ s.cfg.burstExp) z.wanted)
          ∨ (z.phase = .header ∧ ∃ before i bs behind, z.store = before ++ ⟨i, bs⟩ :: behind
              ∧ (∀ m ∈ before, m.bytes.length = 80) ∧ bs.length < 80 ∧ n = min (256 * 2 ^ s.cfg.burstExp) (80 - bs.length)) →
        let e := s.entry s.cfg.verifierRead
        s.arbitrate =
          { s with
            fp := { s.fp with
              holder := .own (.burst c n), select := true
              sent := s.cfg.verifierRead :: beBytes e.addrBytes z.nextRead, shape := some e, lastServed := c } }) ∧
      (sleeping → ¬ reading → ready → s.arbitrate = issued .sleep s.cfg.sleep) ∧
      (¬ demand → s.arbitrate = s))

/-- FLOOR_CELL_COMPLETE burns the lowest unburned cell of the kind's row and raises the floor by one, the job ending at its target;
REVOKE_CELL_COMPLETE burns the slot's revocation cell, makes the slot REVOKED and ends the job. That what is left of the cell's time
passes in every timer is the model's choice, log 3. -/
def Obligations.BurnsComplete : Prop :=
  ∀ (s : State) (r : Nat),
    (∀ (k : Fin 8) (target : Nat) (p : Fin 63), s.keys.burn = some ⟨.floor k target, r⟩ →
      s.store.floors[k].getLsbD p = false → (∀ q : Fin 63, q < p → s.store.floors[k].getLsbD q = true) →
      exec .floorCellComplete s = .next
        { s.elapse r with
          store := s.store.burn (.floor k p)
          keys := { s.keys with
            floors := s.keys.floors.set k (s.keys.floors[k] + 1)
            burn := if target ≤ s.keys.floors[k] + 1 then none else some ⟨.floor k target, 500⟩ } }) ∧
    (∀ slot : Fin 4, s.keys.burn = some ⟨.revoke slot, r⟩ →
      exec .revokeCellComplete s = .next
        { s.elapse r with
          store := s.store.burn (.revoked slot)
          keys := { s.keys with
            slots := s.keys.slots.set slot { s.keys.slots[slot] with state := .revoked }
            burn := none } })

/-- The key store agrees with the cells of the store through every step. -/
def Obligations.EveryStepKeepsTheKeyStoreInAgreement : Prop :=
  ∀ s t : State, s.PortsAgree → s.RecordsProper → s.KeysAgree → step s = .next t → t.KeysAgree
end

