-- ==== Sys2Proof/Laws/Gate.lean ====
section
/-! SUPPORT. What the gate decides, once and for all: the iff between the decision of R81 and the address being showable, and the causes
of a filled byte. -/

namespace Sys2Proof.Machine

theorem regionAt_region {s : State} {a i : Nat} (h : s.regionAt a = some i) : ∃ r, s.region i = some r ∧ r.holds a = true := by
  obtain ⟨hlt, hp, -⟩ := List.findIdx?_eq_some_iff_getElem.mp h
  exact ⟨s.regions[i], by simp [State.region, hlt], hp⟩

/-- The pair a region is a slot of exists. -/
theorem pairOf_pair {s : State} {i j : Nat} (h : s.pairOf i = some j) : ∃ p, s.pair j = some p := by
  obtain ⟨hlt, -, -⟩ := List.findIdx?_eq_some_iff_getElem.mp h
  exact ⟨s.pairs[j], by simp [State.pair, hlt]⟩

/-- The effective gate is the one the table of R78 gives. -/
theorem effectiveGate_iff (s : State) (i : Nat) (r : Region) (g : Gate) : s.effectiveGate i r = g ↔ s.GateIs i r g := by
  unfold State.effectiveGate State.GateIs
  cases hj : s.pairOf i with
  | none => simp; exact eq_comm
  | some j =>
    obtain ⟨p, hp⟩ := pairOf_pair hj
    by_cases hs : p.selection = .none <;> by_cases hi : p.selected = some i <;> by_cases he : p.escalated = true <;>
      simp [hp, hs, hi, he, Pair.isSelection] <;> exact eq_comm

/-- The signed extent of R22. -/
theorem inExtent_iff (r : Region) (len a : Nat) :
    r.inExtent len a = true ↔ (r.base ≤ a ∧ a < r.base + 80) ∨ (r.base + 256 ≤ a ∧ a < r.base + 256 + len) := by
  simp [Region.inExtent]

/-- The gate lets the flash's byte through exactly where it may be shown. -/
theorem gateByte_flash_iff (s : State) (a : Nat) : s.gateByte a = .flash ↔ s.Showable a := by
  unfold State.gateByte State.Showable
  simp only [← effectiveGate_iff, ← inExtent_iff]
  cases hi : s.regionAt a with
  | none => simp
  | some i =>
    obtain ⟨r, hr, -⟩ := regionAt_region hi
    cases ht : s.rt i with
    | none => simp [hr, ht]
    | some t =>
      simp only [hr]
      by_cases ho : s.effectiveGate i r = .opened
      · simp [ho, hr]
      · by_cases hv : t.state = .verified
        · cases hm : t.recorded with
          | none => simp [ho, hr, ht, hv, hm]
          | some m => by_cases he : r.inExtent m.signedLength a = true <;> simp [ho, hr, ht, hv, hm, he]
        · by_cases hg : s.effectiveGate i r = .observe ∧ t.state ≠ .rejected ∧ t.state ≠ .stale
          · simp [hr, ht, hv, hg.1, hg.2.1, hg.2.2]
          · simp only [if_neg ho, ht, if_neg hv, if_neg hg, reduceCtorEq, false_iff]
            rintro (h | ⟨i', r', hi', hr', h⟩)
            · simp at h
            · obtain rfl : i = i' := by simpa using hi'
              obtain rfl : r = r' := by simpa [hr] using hr'
              rcases h with h | ⟨t', ht', h⟩
              · exact ho h
              · obtain rfl : t = t' := by simpa [ht] using ht'
                rcases h with ⟨h, -⟩ | ⟨h1, -, h2, h3⟩
                · exact hv h
                · exact hg ⟨h1, h2, h3⟩

/-- A byte that the gate fills is filled for TAIL in a VERIFIED region and for GATE in any other. -/
theorem gateByte_fill {s : State} {a : Nat} {c : FillCause} (h : s.gateByte a = .fill c) :
    ∃ i r, s.regionAt a = some i ∧ s.region i = some r
      ∧ ((c = .tail ∧ ∃ t, s.rt i = some t ∧ t.state = .verified)
        ∨ (c = .gate ∧ ∀ t, s.rt i = some t → t.state ≠ .verified)) := by
  unfold State.gateByte at h
  cases hi : s.regionAt a with
  | none => simp [hi] at h
  | some i =>
    obtain ⟨r, hr, -⟩ := regionAt_region hi
    refine ⟨i, r, rfl, hr, ?_⟩
    simp only [hi, hr] at h
    split at h
    · cases h
    · cases ht : s.rt i with
      | none => simp_all
      | some t =>
        simp only [ht] at h
        by_cases hv : t.state = .verified
        · simp only [hv, if_true] at h
          split at h <;> simp_all
        · simp only [hv, if_false] at h
          split at h <;> simp_all

/-- A byte that misses its wanted address is filled for CROSSING. -/
theorem streamByte_misaligned {s : State} {ws : List Window} {l0 k : Nat}
    (h : wanted ws s.flashSize l0 k ≠ delivered ws s.flashSize l0 k) : s.streamByte ws l0 k = .fill .crossing := by
  simp [State.streamByte, h]

/-- A byte at its wanted address is decided by the gate. -/
theorem streamByte_aligned {s : State} {ws : List Window} {l0 k : Nat}
    (h : wanted ws s.flashSize l0 k = delivered ws s.flashSize l0 k) :
    s.streamByte ws l0 k = s.gateByte (wanted ws s.flashSize l0 k) := by
  simp [State.streamByte, h]

theorem bump_le (n : Nat) : n ≤ bump n := by unfold bump; split <;> omega

end Sys2Proof.Machine
end

