-- ==== Sys2Proof/Laws/Filter.lean ====
section
/-! SUPPORT. What the write filter looks at: the regions a range touches, the unmapped bytes in it, and the protected bytes. -/

namespace Sys2Proof.Machine

/-- A region is touched by a range that is not empty exactly when a byte of the range lies in it. -/
theorem touched_iff (r : Region) (range : Nat × Nat) :
    r.touched range = true ↔ ∃ a, range.1 ≤ a ∧ a < range.1 + range.2 ∧ r.holds a = true := by
  simp only [Region.touched, Region.holds, Bool.and_eq_true, decide_eq_true_eq]
  constructor
  · intro h
    exact ⟨max range.1 r.base, by omega, by omega, by omega, by omega⟩
  · rintro ⟨a, h1, h2, h3, h4⟩
    omega

theorem mem_touchedRegions (s : State) (range : Nat × Nat) (i : Nat) :
    i ∈ s.touchedRegions range ↔ ∃ r, s.region i = some r ∧ r.touched range = true := by
  simp only [State.touchedRegions, List.mem_map, List.mem_filter, State.region]
  constructor
  · rintro ⟨⟨r, j⟩, ⟨hm, ht⟩, rfl⟩
    exact ⟨r, by simpa [List.mk_mem_zipIdx_iff_getElem?] using hm, ht⟩
  · rintro ⟨r, hr, ht⟩
    exact ⟨(r, i), ⟨by simpa [List.mk_mem_zipIdx_iff_getElem?] using hr, ht⟩, rfl⟩

theorem regionAt_none_iff (s : State) (a : Nat) : s.regionAt a = none ↔ ∀ i r, s.region i = some r → r.holds a = false := by
  simp only [State.regionAt, List.findIdx?_eq_none_iff, State.region]
  constructor
  · intro h i r hr
    exact h r (List.mem_of_getElem? hr)
  · intro h r hr
    obtain ⟨i, hi⟩ := List.mem_iff_getElem?.mp hr
    exact h i r hi

/-- The largest number of a list that is at most `a`, given one that is. -/
theorem exists_largest (a : Nat) : ∀ (l : List Nat) (x : Nat), x ≤ a →
    ∃ m, (m = x ∨ m ∈ l) ∧ m ≤ a ∧ x ≤ m ∧ ∀ y ∈ l, y ≤ a → y ≤ m
  | [], x, hx => ⟨x, .inl rfl, hx, le_refl _, by simp⟩
  | z :: l, x, hx => by
    obtain ⟨m, hm, hma, hxm, hall⟩ := exists_largest a l x hx
    by_cases hz : z ≤ a ∧ m < z
    · refine ⟨z, .inr (by simp), hz.1, by omega, ?_⟩
      intro y hy hya
      rcases List.mem_cons.mp hy with rfl | hy
      · exact le_refl _
      · have := hall y hy hya
        omega
    · refine ⟨m, hm.imp_right (List.mem_cons_of_mem _), hma, hxm, ?_⟩
      intro y hy hya
      rcases List.mem_cons.mp hy with rfl | hy
      · omega
      · exact hall y hy hya

/-- A range touches unmapped space exactly when a byte of it lies in no region (R20). -/
theorem touchesUnmapped_iff (s : State) (range : Nat × Nat) :
    s.touchesUnmapped range = true ↔ ∃ a, range.1 ≤ a ∧ a < range.1 + range.2 ∧ s.regionAt a = none := by
  simp only [State.touchesUnmapped, List.any_eq_true, Bool.and_eq_true, Option.isNone_iff_eq_none, inRange, decide_eq_true_eq]
  constructor
  · rintro ⟨a, -, ⟨h1, h2⟩, h3⟩
    exact ⟨a, h1, h2, h3⟩
  · rintro ⟨a, h1, h2, h3⟩
    obtain ⟨m, hm, hma, hxm, hall⟩ := exists_largest a (s.regions.map fun r => r.base + r.length) range.1 h1
    refine ⟨m, by simpa using hm, ⟨hxm, by omega⟩, ?_⟩
    rw [regionAt_none_iff] at h3 ⊢
    intro i r hr
    have h := h3 i r hr
    simp only [Region.holds, Bool.and_eq_false_iff, decide_eq_false_iff_not] at h ⊢
    have hend := hall (r.base + r.length) (List.mem_map.mpr ⟨r, List.mem_of_getElem? hr, rfl⟩)
    omega

/-- The effective write policy of a region is the one the tables of R110 to R112 give. -/
theorem lockedRegion_iff (s : State) (i : Nat) (r : Region) : s.lockedRegion i r = true ↔ s.PolicyLocked i r := by
  have hslot : (match (s.pairOf i).bind s.pair with | some p => s.slotLocked p i | none => true) = true ↔
      ∀ j p, s.pairOf i = some j → s.pair j = some p →
        p.selected = some i ∨ (p.selection = .none ∧ ¬ (p.state = .failed ∧ s.permit = .denied)) := by
    cases hj : s.pairOf i with
    | none => simp
    | some j =>
      obtain ⟨p, hp⟩ := pairOf_pair hj
      have hall : ∀ P : Pair → Prop, (∀ j' p', some j = some j' → s.pair j' = some p' → P p') ↔ P p := fun P =>
        ⟨fun h => h j p rfl hp, by rintro h _ _ ⟨⟩ h'; cases hp.symm.trans h'; exact h⟩
      rw [hall fun p => p.selected = some i ∨ (p.selection = .none ∧ ¬ (p.state = .failed ∧ s.permit = .denied))]
      cases hs : p.selection <;> simp [hp, State.slotLocked, hs, Pair.isSelection, Pair.selected, Selection.slot] <;> try tauto
  unfold State.lockedRegion State.PolicyLocked
  cases hpol : r.policy with
  | slot =>
    simp only
    rw [← hslot]
    cases s.permit <;> simp [PermitState.shut, PermitState.running] <;> rfl
  | locked => cases s.permit <;> simp [PermitState.shut, PermitState.running]; try tauto
  | free => cases s.permit <;> simp [PermitState.shut, PermitState.running]

/-- The effective write policy of unmapped space (R110). -/
theorem lockedUnmapped_iff (s : State) : s.lockedUnmapped = true ↔ s.UnmappedLocked := by
  unfold State.lockedUnmapped State.UnmappedLocked
  cases hperm : s.permit <;> simp [PermitState.shut, PermitState.running]

/-- A range is locked exactly when a byte of it is protected (R114, R115). -/
theorem rangeLocked_iff (s : State) (range : Nat × Nat) :
    s.rangeLocked range = true ↔ ∃ a, range.1 ≤ a ∧ a < range.1 + range.2 ∧ s.Protected a := by
  simp only [State.rangeLocked, Bool.or_eq_true, Bool.and_eq_true, List.any_eq_true, mem_touchedRegions, touchesUnmapped_iff]
  constructor
  · rintro (⟨i, ⟨r, hr, ht⟩, hl⟩ | ⟨⟨a, h1, h2, h3⟩, hl⟩)
    · obtain ⟨a, h1, h2, h3⟩ := (touched_iff r range).mp ht
      exact ⟨a, h1, h2, .inl ⟨i, r, hr, h3, (lockedRegion_iff s i r).mp (by simpa [hr] using hl)⟩⟩
    · exact ⟨a, h1, h2, .inr ⟨(regionAt_none_iff s a).mp h3, (lockedUnmapped_iff s).mp hl⟩⟩
  · rintro ⟨a, h1, h2, ⟨i, r, hr, hh, hl⟩ | ⟨hn, hl⟩⟩
    · exact .inl ⟨i, ⟨r, hr, (touched_iff r range).mpr ⟨a, h1, h2, hh⟩⟩, by simpa [hr] using (lockedRegion_iff s i r).mpr hl⟩
    · exact .inr ⟨⟨a, h1, h2, (regionAt_none_iff s a).mpr hn⟩, (lockedUnmapped_iff s).mpr hl⟩

/-- What the judgement of a write can answer (R114). -/
theorem judgeWrite_cases (s : State) (w p : Nat) (range : Nat × Nat) :
    (outOfField w p = true ∧ s.judgeWrite w p range = some .range)
      ∨ (outOfField w p = false ∧ s.rangeLocked range = true ∧ s.judgeWrite w p range = some .policy)
      ∨ (outOfField w p = false ∧ s.rangeLocked range = false ∧ s.judgeWrite w p range = none) := by
  unfold State.judgeWrite
  cases outOfField w p <;> cases s.rangeLocked range <;> simp

end Sys2Proof.Machine
end

