-- ==== Sys2Proof/Laws/Map.lean ====
section
/-! SUPPORT. The translation list: what an insertion, a swap and a drop do to it, and what a translation can answer. -/

namespace Sys2Proof.Machine

theorem insertWindow_perm (w : Window) : ∀ ws : List Window, (insertWindow w ws).Perm (w :: ws)
  | [] => by simp [insertWindow]
  | v :: vs => by
    unfold insertWindow
    split
    · exact List.Perm.refl _
    · exact ((insertWindow_perm w vs).cons v).trans (List.Perm.swap w v vs)

theorem mem_insertWindow (w v : Window) (ws : List Window) : v ∈ insertWindow w ws ↔ v = w ∨ v ∈ ws := by
  rw [(insertWindow_perm w ws).mem_iff, List.mem_cons]

/-- An insertion keeps the list sorted by from-base (R8). -/
theorem insertWindow_sorted (w : Window) : ∀ ws : List Window, ws.Pairwise (fun a b => a.from_ ≤ b.from_) →
    (insertWindow w ws).Pairwise (fun a b => a.from_ ≤ b.from_)
  | [], _ => by simp [insertWindow]
  | v :: vs, h => by
    rw [List.pairwise_cons] at h
    unfold insertWindow
    split
    · rename_i hle
      refine List.pairwise_cons.mpr ⟨fun u hu => ?_, List.pairwise_cons.mpr h⟩
      rcases List.mem_cons.mp hu with rfl | hu
      · exact hle
      · exact le_trans hle (h.1 u hu)
    · rename_i hlt
      refine List.pairwise_cons.mpr ⟨fun u hu => ?_, insertWindow_sorted w vs h.2⟩
      rcases (mem_insertWindow w u vs).mp hu with rfl | hu
      · omega
      · exact h.1 u hu

theorem installSwap_perm (a b len : Nat) (cause : WindowCause) (owner : Option Nat) (ws : List Window) :
    (installSwap a b len cause owner ws).Perm (⟨a, b, len, cause, owner⟩ :: ⟨b, a, len, cause, owner⟩ :: ws) :=
  (insertWindow_perm _ _).trans ((insertWindow_perm _ _).cons _)

theorem installSwap_sorted (a b len : Nat) (cause : WindowCause) (owner : Option Nat) (ws : List Window)
    (h : ws.Pairwise (fun a b => a.from_ ≤ b.from_)) :
    (installSwap a b len cause owner ws).Pairwise (fun a b => a.from_ ≤ b.from_) :=
  insertWindow_sorted _ _ (insertWindow_sorted _ _ h)

theorem dropPair_sorted (j : Nat) (ws : List Window) (h : ws.Pairwise (fun a b => a.from_ ≤ b.from_)) :
    (dropPair j ws).Pairwise (fun a b => a.from_ ≤ b.from_) := h.filter _

theorem mem_dropPair (j : Nat) (w : Window) (ws : List Window) : w ∈ dropPair j ws ↔ w ∈ ws ∧ w.ofPair j = false := by
  simp [dropPair, Window.ofPair]
  tauto

/-- What a translation can answer: the address itself where no entry holds it, else the place in the first entry that does. -/
theorem translate_cases (ws : List Window) (l : Nat) :
    ((∀ w ∈ ws, ¬ (w.from_ ≤ l ∧ l < w.from_ + w.length)) ∧ translate ws l = l)
      ∨ ∃ w ∈ ws, w.from_ ≤ l ∧ l < w.from_ + w.length ∧ translate ws l = l - w.from_ + w.to_ := by
  unfold translate
  cases h : ws.find? fun w => decide (w.from_ ≤ l) && decide (l < w.from_ + w.length) with
  | none =>
    refine .inl ⟨fun w hw => ?_, rfl⟩
    have := List.find?_eq_none.mp h w hw
    simpa using this
  | some w =>
    have hm := List.mem_of_find?_eq_some h
    have hp := List.find?_some h
    simp only [Bool.and_eq_true, decide_eq_true_eq] at hp
    exact .inr ⟨w, hm, hp.1, hp.2, rfl⟩

@[simp] theorem translate_nil (l : Nat) : translate [] l = l := rfl

/-- A swap just installed exchanges its windows. -/
theorem exchanges_installSwap (a b len : Nat) (cause : WindowCause) (owner : Option Nat) (ws : List Window) :
    exchanges a b len cause owner (installSwap a b len cause owner ws) := by
  simp [exchanges, installSwap, mem_insertWindow]

end Sys2Proof.Machine
end

