-- ==== Sys2Proof/Laws/State.lean ====
section
/-! SUPPORT. One lemma per field and update of State: what an update writes, and that it leaves every other field. -/

namespace Sys2Proof.Machine

variable (s : State)

/-! ### modRt -/

@[simp] theorem State.modRt_pending (i : Nat) (f : Runtime → Runtime) : (s.modRt i f).pending = s.pending := rfl
@[simp] theorem State.modRt_resetN (i : Nat) (f : Runtime → Runtime) : (s.modRt i f).resetN = s.resetN := rfl
@[simp] theorem State.modRt_resetCause (i : Nat) (f : Runtime → Runtime) : (s.modRt i f).resetCause = s.resetCause := rfl
@[simp] theorem State.modRt_straps (i : Nat) (f : Runtime → Runtime) : (s.modRt i f).straps = s.straps := rfl
@[simp] theorem State.modRt_load (i : Nat) (f : Runtime → Runtime) : (s.modRt i f).load = s.load := rfl
@[simp] theorem State.modRt_prov (i : Nat) (f : Runtime → Runtime) : (s.modRt i f).prov = s.prov := rfl
@[simp] theorem State.modRt_sinceReset (i : Nat) (f : Runtime → Runtime) : (s.modRt i f).sinceReset = s.sinceReset := rfl
@[simp] theorem State.modRt_runElapsed (i : Nat) (f : Runtime → Runtime) : (s.modRt i f).runElapsed = s.runElapsed := rfl
@[simp] theorem State.modRt_store (i : Nat) (f : Runtime → Runtime) : (s.modRt i f).store = s.store := rfl
@[simp] theorem State.modRt_cfg (i : Nat) (f : Runtime → Runtime) : (s.modRt i f).cfg = s.cfg := rfl
@[simp] theorem State.modRt_synth (i : Nat) (f : Runtime → Runtime) : (s.modRt i f).synth = s.synth := rfl
@[simp] theorem State.modRt_keys (i : Nat) (f : Runtime → Runtime) : (s.modRt i f).keys = s.keys := rfl
@[simp] theorem State.modRt_regions (i : Nat) (f : Runtime → Runtime) : (s.modRt i f).regions = s.regions := rfl
@[simp] theorem State.modRt_pairs (i : Nat) (f : Runtime → Runtime) : (s.modRt i f).pairs = s.pairs := rfl
@[simp] theorem State.modRt_runtime (i : Nat) (f : Runtime → Runtime) : (s.modRt i f).runtime = s.runtime.modify i (Option.map f) := rfl
@[simp] theorem State.modRt_runNumber (i : Nat) (f : Runtime → Runtime) : (s.modRt i f).runNumber = s.runNumber := rfl
@[simp] theorem State.modRt_queue (i : Nat) (f : Runtime → Runtime) : (s.modRt i f).queue = s.queue := rfl
@[simp] theorem State.modRt_deadline (i : Nat) (f : Runtime → Runtime) : (s.modRt i f).deadline = s.deadline := rfl
@[simp] theorem State.modRt_trans (i : Nat) (f : Runtime → Runtime) : (s.modRt i f).trans = s.trans := rfl
@[simp] theorem State.modRt_contexts (i : Nat) (f : Runtime → Runtime) : (s.modRt i f).contexts = s.contexts := rfl
@[simp] theorem State.modRt_sigList (i : Nat) (f : Runtime → Runtime) : (s.modRt i f).sigList = s.sigList := rfl
@[simp] theorem State.modRt_sigUnit (i : Nat) (f : Runtime → Runtime) : (s.modRt i f).sigUnit = s.sigUnit := rfl
@[simp] theorem State.modRt_up (i : Nat) (f : Runtime → Runtime) : (s.modRt i f).up = s.up := rfl
@[simp] theorem State.modRt_fp (i : Nat) (f : Runtime → Runtime) : (s.modRt i f).fp = s.fp := rfl
@[simp] theorem State.modRt_violation (i : Nat) (f : Runtime → Runtime) : (s.modRt i f).violation = s.violation := rfl
@[simp] theorem State.modRt_permit (i : Nat) (f : Runtime → Runtime) : (s.modRt i f).permit = s.permit := rfl
@[simp] theorem State.modRt_pulse (i : Nat) (f : Runtime → Runtime) : (s.modRt i f).pulse = s.pulse := rfl
@[simp] theorem State.modRt_recoverySwap (i : Nat) (f : Runtime → Runtime) : (s.modRt i f).recoverySwap = s.recoverySwap := rfl
@[simp] theorem State.modRt_report (i : Nat) (f : Runtime → Runtime) : (s.modRt i f).report = s.report := rfl
@[simp] theorem State.modRt_alerts (i : Nat) (f : Runtime → Runtime) : (s.modRt i f).alerts = s.alerts := rfl
@[simp] theorem State.modRt_pins (i : Nat) (f : Runtime → Runtime) : (s.modRt i f).pins = s.pins := rfl
@[simp] theorem State.modRt_response (i : Nat) (f : Runtime → Runtime) : (s.modRt i f).response = s.response := rfl

/-! ### enterHeader -/

@[simp] theorem State.enterHeader_pending (c : Fin 4) (i : Nat) : (s.enterHeader c i).pending = s.pending := rfl
@[simp] theorem State.enterHeader_resetN (c : Fin 4) (i : Nat) : (s.enterHeader c i).resetN = s.resetN := rfl
@[simp] theorem State.enterHeader_resetCause (c : Fin 4) (i : Nat) : (s.enterHeader c i).resetCause = s.resetCause := rfl
@[simp] theorem State.enterHeader_straps (c : Fin 4) (i : Nat) : (s.enterHeader c i).straps = s.straps := rfl
@[simp] theorem State.enterHeader_load (c : Fin 4) (i : Nat) : (s.enterHeader c i).load = s.load := rfl
@[simp] theorem State.enterHeader_prov (c : Fin 4) (i : Nat) : (s.enterHeader c i).prov = s.prov := rfl
@[simp] theorem State.enterHeader_sinceReset (c : Fin 4) (i : Nat) : (s.enterHeader c i).sinceReset = s.sinceReset := rfl
@[simp] theorem State.enterHeader_runElapsed (c : Fin 4) (i : Nat) : (s.enterHeader c i).runElapsed = s.runElapsed := rfl
@[simp] theorem State.enterHeader_store (c : Fin 4) (i : Nat) : (s.enterHeader c i).store = s.store := rfl
@[simp] theorem State.enterHeader_cfg (c : Fin 4) (i : Nat) : (s.enterHeader c i).cfg = s.cfg := rfl
@[simp] theorem State.enterHeader_synth (c : Fin 4) (i : Nat) : (s.enterHeader c i).synth = s.synth := rfl
@[simp] theorem State.enterHeader_keys (c : Fin 4) (i : Nat) : (s.enterHeader c i).keys = s.keys := rfl
@[simp] theorem State.enterHeader_regions (c : Fin 4) (i : Nat) : (s.enterHeader c i).regions = s.regions := rfl
@[simp] theorem State.enterHeader_pairs (c : Fin 4) (i : Nat) : (s.enterHeader c i).pairs = s.pairs := rfl
@[simp] theorem State.enterHeader_runNumber (c : Fin 4) (i : Nat) : (s.enterHeader c i).runNumber = s.runNumber := rfl
@[simp] theorem State.enterHeader_queue (c : Fin 4) (i : Nat) : (s.enterHeader c i).queue = s.queue := rfl
@[simp] theorem State.enterHeader_deadline (c : Fin 4) (i : Nat) : (s.enterHeader c i).deadline = s.deadline := rfl
@[simp] theorem State.enterHeader_trans (c : Fin 4) (i : Nat) : (s.enterHeader c i).trans = s.trans := rfl
@[simp] theorem State.enterHeader_contexts (c : Fin 4) (i : Nat) : (s.enterHeader c i).contexts = s.contexts := rfl
@[simp] theorem State.enterHeader_sigList (c : Fin 4) (i : Nat) : (s.enterHeader c i).sigList = s.sigList := rfl
@[simp] theorem State.enterHeader_sigUnit (c : Fin 4) (i : Nat) : (s.enterHeader c i).sigUnit = s.sigUnit := rfl
@[simp] theorem State.enterHeader_up (c : Fin 4) (i : Nat) : (s.enterHeader c i).up = s.up := rfl
@[simp] theorem State.enterHeader_fp (c : Fin 4) (i : Nat) : (s.enterHeader c i).fp = s.fp := rfl
@[simp] theorem State.enterHeader_violation (c : Fin 4) (i : Nat) : (s.enterHeader c i).violation = s.violation := rfl
@[simp] theorem State.enterHeader_permit (c : Fin 4) (i : Nat) : (s.enterHeader c i).permit = s.permit := rfl
@[simp] theorem State.enterHeader_pulse (c : Fin 4) (i : Nat) : (s.enterHeader c i).pulse = s.pulse := rfl
@[simp] theorem State.enterHeader_recoverySwap (c : Fin 4) (i : Nat) : (s.enterHeader c i).recoverySwap = s.recoverySwap := rfl
@[simp] theorem State.enterHeader_report (c : Fin 4) (i : Nat) : (s.enterHeader c i).report = s.report := rfl
@[simp] theorem State.enterHeader_alerts (c : Fin 4) (i : Nat) : (s.enterHeader c i).alerts = s.alerts := rfl
@[simp] theorem State.enterHeader_pins (c : Fin 4) (i : Nat) : (s.enterHeader c i).pins = s.pins := rfl
@[simp] theorem State.enterHeader_response (c : Fin 4) (i : Nat) : (s.enterHeader c i).response = s.response := rfl

/-! ### modPair -/

@[simp] theorem State.modPair_pending (j : Nat) (f : Pair → Pair) : (s.modPair j f).pending = s.pending := rfl
@[simp] theorem State.modPair_resetN (j : Nat) (f : Pair → Pair) : (s.modPair j f).resetN = s.resetN := rfl
@[simp] theorem State.modPair_resetCause (j : Nat) (f : Pair → Pair) : (s.modPair j f).resetCause = s.resetCause := rfl
@[simp] theorem State.modPair_straps (j : Nat) (f : Pair → Pair) : (s.modPair j f).straps = s.straps := rfl
@[simp] theorem State.modPair_load (j : Nat) (f : Pair → Pair) : (s.modPair j f).load = s.load := rfl
@[simp] theorem State.modPair_prov (j : Nat) (f : Pair → Pair) : (s.modPair j f).prov = s.prov := rfl
@[simp] theorem State.modPair_sinceReset (j : Nat) (f : Pair → Pair) : (s.modPair j f).sinceReset = s.sinceReset := rfl
@[simp] theorem State.modPair_runElapsed (j : Nat) (f : Pair → Pair) : (s.modPair j f).runElapsed = s.runElapsed := rfl
@[simp] theorem State.modPair_store (j : Nat) (f : Pair → Pair) : (s.modPair j f).store = s.store := rfl
@[simp] theorem State.modPair_cfg (j : Nat) (f : Pair → Pair) : (s.modPair j f).cfg = s.cfg := rfl
@[simp] theorem State.modPair_synth (j : Nat) (f : Pair → Pair) : (s.modPair j f).synth = s.synth := rfl
@[simp] theorem State.modPair_keys (j : Nat) (f : Pair → Pair) : (s.modPair j f).keys = s.keys := rfl
@[simp] theorem State.modPair_regions (j : Nat) (f : Pair → Pair) : (s.modPair j f).regions = s.regions := rfl
@[simp] theorem State.modPair_pairs (j : Nat) (f : Pair → Pair) : (s.modPair j f).pairs = s.pairs.modify j f := rfl
@[simp] theorem State.modPair_runtime (j : Nat) (f : Pair → Pair) : (s.modPair j f).runtime = s.runtime := rfl
@[simp] theorem State.modPair_runNumber (j : Nat) (f : Pair → Pair) : (s.modPair j f).runNumber = s.runNumber := rfl
@[simp] theorem State.modPair_queue (j : Nat) (f : Pair → Pair) : (s.modPair j f).queue = s.queue := rfl
@[simp] theorem State.modPair_deadline (j : Nat) (f : Pair → Pair) : (s.modPair j f).deadline = s.deadline := rfl
@[simp] theorem State.modPair_trans (j : Nat) (f : Pair → Pair) : (s.modPair j f).trans = s.trans := rfl
@[simp] theorem State.modPair_contexts (j : Nat) (f : Pair → Pair) : (s.modPair j f).contexts = s.contexts := rfl
@[simp] theorem State.modPair_sigList (j : Nat) (f : Pair → Pair) : (s.modPair j f).sigList = s.sigList := rfl
@[simp] theorem State.modPair_sigUnit (j : Nat) (f : Pair → Pair) : (s.modPair j f).sigUnit = s.sigUnit := rfl
@[simp] theorem State.modPair_up (j : Nat) (f : Pair → Pair) : (s.modPair j f).up = s.up := rfl
@[simp] theorem State.modPair_fp (j : Nat) (f : Pair → Pair) : (s.modPair j f).fp = s.fp := rfl
@[simp] theorem State.modPair_violation (j : Nat) (f : Pair → Pair) : (s.modPair j f).violation = s.violation := rfl
@[simp] theorem State.modPair_permit (j : Nat) (f : Pair → Pair) : (s.modPair j f).permit = s.permit := rfl
@[simp] theorem State.modPair_pulse (j : Nat) (f : Pair → Pair) : (s.modPair j f).pulse = s.pulse := rfl
@[simp] theorem State.modPair_recoverySwap (j : Nat) (f : Pair → Pair) : (s.modPair j f).recoverySwap = s.recoverySwap := rfl
@[simp] theorem State.modPair_report (j : Nat) (f : Pair → Pair) : (s.modPair j f).report = s.report := rfl
@[simp] theorem State.modPair_alerts (j : Nat) (f : Pair → Pair) : (s.modPair j f).alerts = s.alerts := rfl
@[simp] theorem State.modPair_pins (j : Nat) (f : Pair → Pair) : (s.modPair j f).pins = s.pins := rfl
@[simp] theorem State.modPair_response (j : Nat) (f : Pair → Pair) : (s.modPair j f).response = s.response := rfl

/-! ### setCtx -/

@[simp] theorem State.setCtx_pending (c : Fin 4) (x : Option Ctx) : (s.setCtx c x).pending = s.pending := rfl
@[simp] theorem State.setCtx_resetN (c : Fin 4) (x : Option Ctx) : (s.setCtx c x).resetN = s.resetN := rfl
@[simp] theorem State.setCtx_resetCause (c : Fin 4) (x : Option Ctx) : (s.setCtx c x).resetCause = s.resetCause := rfl
@[simp] theorem State.setCtx_straps (c : Fin 4) (x : Option Ctx) : (s.setCtx c x).straps = s.straps := rfl
@[simp] theorem State.setCtx_load (c : Fin 4) (x : Option Ctx) : (s.setCtx c x).load = s.load := rfl
@[simp] theorem State.setCtx_prov (c : Fin 4) (x : Option Ctx) : (s.setCtx c x).prov = s.prov := rfl
@[simp] theorem State.setCtx_sinceReset (c : Fin 4) (x : Option Ctx) : (s.setCtx c x).sinceReset = s.sinceReset := rfl
@[simp] theorem State.setCtx_runElapsed (c : Fin 4) (x : Option Ctx) : (s.setCtx c x).runElapsed = s.runElapsed := rfl
@[simp] theorem State.setCtx_store (c : Fin 4) (x : Option Ctx) : (s.setCtx c x).store = s.store := rfl
@[simp] theorem State.setCtx_cfg (c : Fin 4) (x : Option Ctx) : (s.setCtx c x).cfg = s.cfg := rfl
@[simp] theorem State.setCtx_synth (c : Fin 4) (x : Option Ctx) : (s.setCtx c x).synth = s.synth := rfl
@[simp] theorem State.setCtx_keys (c : Fin 4) (x : Option Ctx) : (s.setCtx c x).keys = s.keys := rfl
@[simp] theorem State.setCtx_regions (c : Fin 4) (x : Option Ctx) : (s.setCtx c x).regions = s.regions := rfl
@[simp] theorem State.setCtx_pairs (c : Fin 4) (x : Option Ctx) : (s.setCtx c x).pairs = s.pairs := rfl
@[simp] theorem State.setCtx_runtime (c : Fin 4) (x : Option Ctx) : (s.setCtx c x).runtime = s.runtime := rfl
@[simp] theorem State.setCtx_runNumber (c : Fin 4) (x : Option Ctx) : (s.setCtx c x).runNumber = s.runNumber := rfl
@[simp] theorem State.setCtx_queue (c : Fin 4) (x : Option Ctx) : (s.setCtx c x).queue = s.queue := rfl
@[simp] theorem State.setCtx_deadline (c : Fin 4) (x : Option Ctx) : (s.setCtx c x).deadline = s.deadline := rfl
@[simp] theorem State.setCtx_trans (c : Fin 4) (x : Option Ctx) : (s.setCtx c x).trans = s.trans := rfl
@[simp] theorem State.setCtx_contexts (c : Fin 4) (x : Option Ctx) : (s.setCtx c x).contexts = s.contexts.set c x := rfl
@[simp] theorem State.setCtx_sigList (c : Fin 4) (x : Option Ctx) : (s.setCtx c x).sigList = s.sigList := rfl
@[simp] theorem State.setCtx_sigUnit (c : Fin 4) (x : Option Ctx) : (s.setCtx c x).sigUnit = s.sigUnit := rfl
@[simp] theorem State.setCtx_up (c : Fin 4) (x : Option Ctx) : (s.setCtx c x).up = s.up := rfl
@[simp] theorem State.setCtx_fp (c : Fin 4) (x : Option Ctx) : (s.setCtx c x).fp = s.fp := rfl
@[simp] theorem State.setCtx_violation (c : Fin 4) (x : Option Ctx) : (s.setCtx c x).violation = s.violation := rfl
@[simp] theorem State.setCtx_permit (c : Fin 4) (x : Option Ctx) : (s.setCtx c x).permit = s.permit := rfl
@[simp] theorem State.setCtx_pulse (c : Fin 4) (x : Option Ctx) : (s.setCtx c x).pulse = s.pulse := rfl
@[simp] theorem State.setCtx_recoverySwap (c : Fin 4) (x : Option Ctx) : (s.setCtx c x).recoverySwap = s.recoverySwap := rfl
@[simp] theorem State.setCtx_report (c : Fin 4) (x : Option Ctx) : (s.setCtx c x).report = s.report := rfl
@[simp] theorem State.setCtx_alerts (c : Fin 4) (x : Option Ctx) : (s.setCtx c x).alerts = s.alerts := rfl
@[simp] theorem State.setCtx_pins (c : Fin 4) (x : Option Ctx) : (s.setCtx c x).pins = s.pins := rfl
@[simp] theorem State.setCtx_response (c : Fin 4) (x : Option Ctx) : (s.setCtx c x).response = s.response := rfl

/-! ### releaseCtx -/

@[simp] theorem State.releaseCtx_pending (c : Fin 4) : (s.releaseCtx c).pending = s.pending := rfl
@[simp] theorem State.releaseCtx_resetN (c : Fin 4) : (s.releaseCtx c).resetN = s.resetN := rfl
@[simp] theorem State.releaseCtx_resetCause (c : Fin 4) : (s.releaseCtx c).resetCause = s.resetCause := rfl
@[simp] theorem State.releaseCtx_straps (c : Fin 4) : (s.releaseCtx c).straps = s.straps := rfl
@[simp] theorem State.releaseCtx_load (c : Fin 4) : (s.releaseCtx c).load = s.load := rfl
@[simp] theorem State.releaseCtx_prov (c : Fin 4) : (s.releaseCtx c).prov = s.prov := rfl
@[simp] theorem State.releaseCtx_sinceReset (c : Fin 4) : (s.releaseCtx c).sinceReset = s.sinceReset := rfl
@[simp] theorem State.releaseCtx_runElapsed (c : Fin 4) : (s.releaseCtx c).runElapsed = s.runElapsed := rfl
@[simp] theorem State.releaseCtx_store (c : Fin 4) : (s.releaseCtx c).store = s.store := rfl
@[simp] theorem State.releaseCtx_cfg (c : Fin 4) : (s.releaseCtx c).cfg = s.cfg := rfl
@[simp] theorem State.releaseCtx_synth (c : Fin 4) : (s.releaseCtx c).synth = s.synth := rfl
@[simp] theorem State.releaseCtx_keys (c : Fin 4) : (s.releaseCtx c).keys = s.keys := rfl
@[simp] theorem State.releaseCtx_regions (c : Fin 4) : (s.releaseCtx c).regions = s.regions := rfl
@[simp] theorem State.releaseCtx_pairs (c : Fin 4) : (s.releaseCtx c).pairs = s.pairs := rfl
@[simp] theorem State.releaseCtx_runtime (c : Fin 4) :
    (s.releaseCtx c).runtime = s.runtime.map (Option.map fun r => if r.context = some c then { r with context := none } else r) := rfl
@[simp] theorem State.releaseCtx_runNumber (c : Fin 4) : (s.releaseCtx c).runNumber = s.runNumber := rfl
@[simp] theorem State.releaseCtx_queue (c : Fin 4) : (s.releaseCtx c).queue = s.queue := rfl
@[simp] theorem State.releaseCtx_deadline (c : Fin 4) : (s.releaseCtx c).deadline = s.deadline := rfl
@[simp] theorem State.releaseCtx_trans (c : Fin 4) : (s.releaseCtx c).trans = s.trans := rfl
@[simp] theorem State.releaseCtx_contexts (c : Fin 4) : (s.releaseCtx c).contexts = s.contexts.set c none := rfl
@[simp] theorem State.releaseCtx_sigList (c : Fin 4) : (s.releaseCtx c).sigList = s.sigList := rfl
@[simp] theorem State.releaseCtx_sigUnit (c : Fin 4) : (s.releaseCtx c).sigUnit = s.sigUnit := rfl
@[simp] theorem State.releaseCtx_up (c : Fin 4) : (s.releaseCtx c).up = s.up := rfl
@[simp] theorem State.releaseCtx_fp (c : Fin 4) : (s.releaseCtx c).fp = if s.burstFor c then s.fp.toFree else s.fp := rfl
@[simp] theorem State.releaseCtx_violation (c : Fin 4) : (s.releaseCtx c).violation = s.violation := rfl
@[simp] theorem State.releaseCtx_permit (c : Fin 4) : (s.releaseCtx c).permit = s.permit := rfl
@[simp] theorem State.releaseCtx_pulse (c : Fin 4) : (s.releaseCtx c).pulse = s.pulse := rfl
@[simp] theorem State.releaseCtx_recoverySwap (c : Fin 4) : (s.releaseCtx c).recoverySwap = s.recoverySwap := rfl
@[simp] theorem State.releaseCtx_report (c : Fin 4) : (s.releaseCtx c).report = s.report := rfl
@[simp] theorem State.releaseCtx_alerts (c : Fin 4) : (s.releaseCtx c).alerts = s.alerts := rfl
@[simp] theorem State.releaseCtx_pins (c : Fin 4) : (s.releaseCtx c).pins = s.pins := rfl
@[simp] theorem State.releaseCtx_response (c : Fin 4) : (s.releaseCtx c).response = s.response := rfl

/-! ### withdraw -/

@[simp] theorem State.withdraw_pending (i : Nat) : (s.withdraw i).pending = s.pending := rfl
@[simp] theorem State.withdraw_resetN (i : Nat) : (s.withdraw i).resetN = s.resetN := rfl
@[simp] theorem State.withdraw_resetCause (i : Nat) : (s.withdraw i).resetCause = s.resetCause := rfl
@[simp] theorem State.withdraw_straps (i : Nat) : (s.withdraw i).straps = s.straps := rfl
@[simp] theorem State.withdraw_load (i : Nat) : (s.withdraw i).load = s.load := rfl
@[simp] theorem State.withdraw_prov (i : Nat) : (s.withdraw i).prov = s.prov := rfl
@[simp] theorem State.withdraw_sinceReset (i : Nat) : (s.withdraw i).sinceReset = s.sinceReset := rfl
@[simp] theorem State.withdraw_runElapsed (i : Nat) : (s.withdraw i).runElapsed = s.runElapsed := rfl
@[simp] theorem State.withdraw_store (i : Nat) : (s.withdraw i).store = s.store := rfl
@[simp] theorem State.withdraw_cfg (i : Nat) : (s.withdraw i).cfg = s.cfg := rfl
@[simp] theorem State.withdraw_synth (i : Nat) : (s.withdraw i).synth = s.synth := rfl
@[simp] theorem State.withdraw_keys (i : Nat) : (s.withdraw i).keys = s.keys := rfl
@[simp] theorem State.withdraw_regions (i : Nat) : (s.withdraw i).regions = s.regions := rfl
@[simp] theorem State.withdraw_pairs (i : Nat) : (s.withdraw i).pairs = s.pairs := rfl
@[simp] theorem State.withdraw_runtime (i : Nat) : (s.withdraw i).runtime = s.runtime := rfl
@[simp] theorem State.withdraw_runNumber (i : Nat) : (s.withdraw i).runNumber = s.runNumber := rfl
@[simp] theorem State.withdraw_queue (i : Nat) : (s.withdraw i).queue = s.queue := rfl
@[simp] theorem State.withdraw_deadline (i : Nat) : (s.withdraw i).deadline = s.deadline := rfl
@[simp] theorem State.withdraw_trans (i : Nat) : (s.withdraw i).trans = s.trans := rfl
@[simp] theorem State.withdraw_contexts (i : Nat) : (s.withdraw i).contexts = s.contexts := rfl
@[simp] theorem State.withdraw_sigList (i : Nat) : (s.withdraw i).sigList = s.sigList.filter fun e => e.region != i := rfl
@[simp] theorem State.withdraw_up (i : Nat) : (s.withdraw i).up = s.up := rfl
@[simp] theorem State.withdraw_fp (i : Nat) : (s.withdraw i).fp = s.fp := rfl
@[simp] theorem State.withdraw_violation (i : Nat) : (s.withdraw i).violation = s.violation := rfl
@[simp] theorem State.withdraw_permit (i : Nat) : (s.withdraw i).permit = s.permit := rfl
@[simp] theorem State.withdraw_pulse (i : Nat) : (s.withdraw i).pulse = s.pulse := rfl
@[simp] theorem State.withdraw_recoverySwap (i : Nat) : (s.withdraw i).recoverySwap = s.recoverySwap := rfl
@[simp] theorem State.withdraw_report (i : Nat) : (s.withdraw i).report = s.report := rfl
@[simp] theorem State.withdraw_alerts (i : Nat) : (s.withdraw i).alerts = s.alerts := rfl
@[simp] theorem State.withdraw_pins (i : Nat) : (s.withdraw i).pins = s.pins := rfl
@[simp] theorem State.withdraw_response (i : Nat) : (s.withdraw i).response = s.response := rfl

/-! ### newAttempt -/

@[simp] theorem State.newAttempt_pending (i : Nat) : (s.newAttempt i).pending = s.pending := rfl
@[simp] theorem State.newAttempt_resetN (i : Nat) : (s.newAttempt i).resetN = s.resetN := rfl
@[simp] theorem State.newAttempt_resetCause (i : Nat) : (s.newAttempt i).resetCause = s.resetCause := rfl
@[simp] theorem State.newAttempt_straps (i : Nat) : (s.newAttempt i).straps = s.straps := rfl
@[simp] theorem State.newAttempt_load (i : Nat) : (s.newAttempt i).load = s.load := rfl
@[simp] theorem State.newAttempt_prov (i : Nat) : (s.newAttempt i).prov = s.prov := rfl
@[simp] theorem State.newAttempt_sinceReset (i : Nat) : (s.newAttempt i).sinceReset = s.sinceReset := rfl
@[simp] theorem State.newAttempt_runElapsed (i : Nat) : (s.newAttempt i).runElapsed = s.runElapsed := rfl
@[simp] theorem State.newAttempt_store (i : Nat) : (s.newAttempt i).store = s.store := rfl
@[simp] theorem State.newAttempt_cfg (i : Nat) : (s.newAttempt i).cfg = s.cfg := rfl
@[simp] theorem State.newAttempt_synth (i : Nat) : (s.newAttempt i).synth = s.synth := rfl
@[simp] theorem State.newAttempt_keys (i : Nat) : (s.newAttempt i).keys = s.keys := rfl
@[simp] theorem State.newAttempt_regions (i : Nat) : (s.newAttempt i).regions = s.regions := rfl
@[simp] theorem State.newAttempt_pairs (i : Nat) : (s.newAttempt i).pairs = s.pairs := rfl
@[simp] theorem State.newAttempt_runtime (i : Nat) :
    (s.newAttempt i).runtime = s.runtime.modify i (Option.map fun _ => Runtime.fresh s.runNumber .queued) := rfl
@[simp] theorem State.newAttempt_runNumber (i : Nat) : (s.newAttempt i).runNumber = s.runNumber := rfl
@[simp] theorem State.newAttempt_queue (i : Nat) : (s.newAttempt i).queue = s.queue ++ [.region i] := rfl
@[simp] theorem State.newAttempt_deadline (i : Nat) : (s.newAttempt i).deadline = s.deadline := rfl
@[simp] theorem State.newAttempt_trans (i : Nat) : (s.newAttempt i).trans = s.trans := rfl
@[simp] theorem State.newAttempt_contexts (i : Nat) : (s.newAttempt i).contexts = s.contexts := rfl
@[simp] theorem State.newAttempt_sigList (i : Nat) : (s.newAttempt i).sigList = s.sigList := rfl
@[simp] theorem State.newAttempt_sigUnit (i : Nat) : (s.newAttempt i).sigUnit = s.sigUnit := rfl
@[simp] theorem State.newAttempt_up (i : Nat) : (s.newAttempt i).up = s.up := rfl
@[simp] theorem State.newAttempt_fp (i : Nat) : (s.newAttempt i).fp = s.fp := rfl
@[simp] theorem State.newAttempt_violation (i : Nat) : (s.newAttempt i).violation = s.violation := rfl
@[simp] theorem State.newAttempt_permit (i : Nat) : (s.newAttempt i).permit = s.permit := rfl
@[simp] theorem State.newAttempt_pulse (i : Nat) : (s.newAttempt i).pulse = s.pulse := rfl
@[simp] theorem State.newAttempt_recoverySwap (i : Nat) : (s.newAttempt i).recoverySwap = s.recoverySwap := rfl
@[simp] theorem State.newAttempt_report (i : Nat) : (s.newAttempt i).report = s.report := rfl
@[simp] theorem State.newAttempt_alerts (i : Nat) : (s.newAttempt i).alerts = s.alerts := rfl
@[simp] theorem State.newAttempt_pins (i : Nat) : (s.newAttempt i).pins = s.pins := rfl
@[simp] theorem State.newAttempt_response (i : Nat) : (s.newAttempt i).response = s.response := rfl

/-! ### modShadow -/

@[simp] theorem State.modShadow_pending (f : Shadow → Shadow) : (s.modShadow f).pending = s.pending := rfl
@[simp] theorem State.modShadow_resetN (f : Shadow → Shadow) : (s.modShadow f).resetN = s.resetN := rfl
@[simp] theorem State.modShadow_resetCause (f : Shadow → Shadow) : (s.modShadow f).resetCause = s.resetCause := rfl
@[simp] theorem State.modShadow_straps (f : Shadow → Shadow) : (s.modShadow f).straps = s.straps := rfl
@[simp] theorem State.modShadow_load (f : Shadow → Shadow) : (s.modShadow f).load = s.load := rfl
@[simp] theorem State.modShadow_prov (f : Shadow → Shadow) : (s.modShadow f).prov = s.prov := rfl
@[simp] theorem State.modShadow_sinceReset (f : Shadow → Shadow) : (s.modShadow f).sinceReset = s.sinceReset := rfl
@[simp] theorem State.modShadow_runElapsed (f : Shadow → Shadow) : (s.modShadow f).runElapsed = s.runElapsed := rfl
@[simp] theorem State.modShadow_store (f : Shadow → Shadow) : (s.modShadow f).store = s.store := rfl
@[simp] theorem State.modShadow_cfg (f : Shadow → Shadow) : (s.modShadow f).cfg = s.cfg := rfl
@[simp] theorem State.modShadow_synth (f : Shadow → Shadow) : (s.modShadow f).synth = s.synth := rfl
@[simp] theorem State.modShadow_keys (f : Shadow → Shadow) : (s.modShadow f).keys = s.keys := rfl
@[simp] theorem State.modShadow_regions (f : Shadow → Shadow) : (s.modShadow f).regions = s.regions := rfl
@[simp] theorem State.modShadow_pairs (f : Shadow → Shadow) : (s.modShadow f).pairs = s.pairs := rfl
@[simp] theorem State.modShadow_runtime (f : Shadow → Shadow) : (s.modShadow f).runtime = s.runtime := rfl
@[simp] theorem State.modShadow_runNumber (f : Shadow → Shadow) : (s.modShadow f).runNumber = s.runNumber := rfl
@[simp] theorem State.modShadow_queue (f : Shadow → Shadow) : (s.modShadow f).queue = s.queue := rfl
@[simp] theorem State.modShadow_deadline (f : Shadow → Shadow) : (s.modShadow f).deadline = s.deadline := rfl
@[simp] theorem State.modShadow_trans (f : Shadow → Shadow) : (s.modShadow f).trans = s.trans := rfl
@[simp] theorem State.modShadow_contexts (f : Shadow → Shadow) : (s.modShadow f).contexts = s.contexts := rfl
@[simp] theorem State.modShadow_sigList (f : Shadow → Shadow) : (s.modShadow f).sigList = s.sigList := rfl
@[simp] theorem State.modShadow_sigUnit (f : Shadow → Shadow) : (s.modShadow f).sigUnit = s.sigUnit := rfl
@[simp] theorem State.modShadow_up (f : Shadow → Shadow) : (s.modShadow f).up = s.up := rfl
@[simp] theorem State.modShadow_fp (f : Shadow → Shadow) : (s.modShadow f).fp = { s.fp with shadow := f s.fp.shadow } := rfl
@[simp] theorem State.modShadow_violation (f : Shadow → Shadow) : (s.modShadow f).violation = s.violation := rfl
@[simp] theorem State.modShadow_permit (f : Shadow → Shadow) : (s.modShadow f).permit = s.permit := rfl
@[simp] theorem State.modShadow_pulse (f : Shadow → Shadow) : (s.modShadow f).pulse = s.pulse := rfl
@[simp] theorem State.modShadow_recoverySwap (f : Shadow → Shadow) : (s.modShadow f).recoverySwap = s.recoverySwap := rfl
@[simp] theorem State.modShadow_report (f : Shadow → Shadow) : (s.modShadow f).report = s.report := rfl
@[simp] theorem State.modShadow_alerts (f : Shadow → Shadow) : (s.modShadow f).alerts = s.alerts := rfl
@[simp] theorem State.modShadow_pins (f : Shadow → Shadow) : (s.modShadow f).pins = s.pins := rfl
@[simp] theorem State.modShadow_response (f : Shadow → Shadow) : (s.modShadow f).response = s.response := rfl

/-! ### freeFlash -/

@[simp] theorem State.freeFlash_pending : (s.freeFlash).pending = s.pending := rfl
@[simp] theorem State.freeFlash_resetN : (s.freeFlash).resetN = s.resetN := rfl
@[simp] theorem State.freeFlash_resetCause : (s.freeFlash).resetCause = s.resetCause := rfl
@[simp] theorem State.freeFlash_straps : (s.freeFlash).straps = s.straps := rfl
@[simp] theorem State.freeFlash_load : (s.freeFlash).load = s.load := rfl
@[simp] theorem State.freeFlash_prov : (s.freeFlash).prov = s.prov := rfl
@[simp] theorem State.freeFlash_sinceReset : (s.freeFlash).sinceReset = s.sinceReset := rfl
@[simp] theorem State.freeFlash_runElapsed : (s.freeFlash).runElapsed = s.runElapsed := rfl
@[simp] theorem State.freeFlash_store : (s.freeFlash).store = s.store := rfl
@[simp] theorem State.freeFlash_cfg : (s.freeFlash).cfg = s.cfg := rfl
@[simp] theorem State.freeFlash_synth : (s.freeFlash).synth = s.synth := rfl
@[simp] theorem State.freeFlash_keys : (s.freeFlash).keys = s.keys := rfl
@[simp] theorem State.freeFlash_regions : (s.freeFlash).regions = s.regions := rfl
@[simp] theorem State.freeFlash_pairs : (s.freeFlash).pairs = s.pairs := rfl
@[simp] theorem State.freeFlash_runtime : (s.freeFlash).runtime = s.runtime := rfl
@[simp] theorem State.freeFlash_runNumber : (s.freeFlash).runNumber = s.runNumber := rfl
@[simp] theorem State.freeFlash_queue : (s.freeFlash).queue = s.queue := rfl
@[simp] theorem State.freeFlash_deadline : (s.freeFlash).deadline = s.deadline := rfl
@[simp] theorem State.freeFlash_trans : (s.freeFlash).trans = s.trans := rfl
@[simp] theorem State.freeFlash_contexts : (s.freeFlash).contexts = s.contexts := rfl
@[simp] theorem State.freeFlash_sigList : (s.freeFlash).sigList = s.sigList := rfl
@[simp] theorem State.freeFlash_sigUnit : (s.freeFlash).sigUnit = s.sigUnit := rfl
@[simp] theorem State.freeFlash_up : (s.freeFlash).up = s.up := rfl
@[simp] theorem State.freeFlash_fp : (s.freeFlash).fp = s.fp.toFree := rfl
@[simp] theorem State.freeFlash_violation : (s.freeFlash).violation = s.violation := rfl
@[simp] theorem State.freeFlash_permit : (s.freeFlash).permit = s.permit := rfl
@[simp] theorem State.freeFlash_pulse : (s.freeFlash).pulse = s.pulse := rfl
@[simp] theorem State.freeFlash_recoverySwap : (s.freeFlash).recoverySwap = s.recoverySwap := rfl
@[simp] theorem State.freeFlash_report : (s.freeFlash).report = s.report := rfl
@[simp] theorem State.freeFlash_alerts : (s.freeFlash).alerts = s.alerts := rfl
@[simp] theorem State.freeFlash_pins : (s.freeFlash).pins = s.pins := rfl
@[simp] theorem State.freeFlash_response : (s.freeFlash).response = s.response := rfl

/-! ### issuePlain -/

@[simp] theorem State.issuePlain_pending (op : OwnOp) (b : Byte) : (s.issuePlain op b).pending = s.pending := rfl
@[simp] theorem State.issuePlain_resetN (op : OwnOp) (b : Byte) : (s.issuePlain op b).resetN = s.resetN := rfl
@[simp] theorem State.issuePlain_resetCause (op : OwnOp) (b : Byte) : (s.issuePlain op b).resetCause = s.resetCause := rfl
@[simp] theorem State.issuePlain_straps (op : OwnOp) (b : Byte) : (s.issuePlain op b).straps = s.straps := rfl
@[simp] theorem State.issuePlain_load (op : OwnOp) (b : Byte) : (s.issuePlain op b).load = s.load := rfl
@[simp] theorem State.issuePlain_prov (op : OwnOp) (b : Byte) : (s.issuePlain op b).prov = s.prov := rfl
@[simp] theorem State.issuePlain_sinceReset (op : OwnOp) (b : Byte) : (s.issuePlain op b).sinceReset = s.sinceReset := rfl
@[simp] theorem State.issuePlain_runElapsed (op : OwnOp) (b : Byte) : (s.issuePlain op b).runElapsed = s.runElapsed := rfl
@[simp] theorem State.issuePlain_store (op : OwnOp) (b : Byte) : (s.issuePlain op b).store = s.store := rfl
@[simp] theorem State.issuePlain_cfg (op : OwnOp) (b : Byte) : (s.issuePlain op b).cfg = s.cfg := rfl
@[simp] theorem State.issuePlain_synth (op : OwnOp) (b : Byte) : (s.issuePlain op b).synth = s.synth := rfl
@[simp] theorem State.issuePlain_keys (op : OwnOp) (b : Byte) : (s.issuePlain op b).keys = s.keys := rfl
@[simp] theorem State.issuePlain_regions (op : OwnOp) (b : Byte) : (s.issuePlain op b).regions = s.regions := rfl
@[simp] theorem State.issuePlain_pairs (op : OwnOp) (b : Byte) : (s.issuePlain op b).pairs = s.pairs := rfl
@[simp] theorem State.issuePlain_runtime (op : OwnOp) (b : Byte) : (s.issuePlain op b).runtime = s.runtime := rfl
@[simp] theorem State.issuePlain_runNumber (op : OwnOp) (b : Byte) : (s.issuePlain op b).runNumber = s.runNumber := rfl
@[simp] theorem State.issuePlain_queue (op : OwnOp) (b : Byte) : (s.issuePlain op b).queue = s.queue := rfl
@[simp] theorem State.issuePlain_deadline (op : OwnOp) (b : Byte) : (s.issuePlain op b).deadline = s.deadline := rfl
@[simp] theorem State.issuePlain_trans (op : OwnOp) (b : Byte) : (s.issuePlain op b).trans = s.trans := rfl
@[simp] theorem State.issuePlain_contexts (op : OwnOp) (b : Byte) : (s.issuePlain op b).contexts = s.contexts := rfl
@[simp] theorem State.issuePlain_sigList (op : OwnOp) (b : Byte) : (s.issuePlain op b).sigList = s.sigList := rfl
@[simp] theorem State.issuePlain_sigUnit (op : OwnOp) (b : Byte) : (s.issuePlain op b).sigUnit = s.sigUnit := rfl
@[simp] theorem State.issuePlain_up (op : OwnOp) (b : Byte) : (s.issuePlain op b).up = s.up := rfl
@[simp] theorem State.issuePlain_fp (op : OwnOp) (b : Byte) : (s.issuePlain op b).fp = s.fp.issue op b [] (s.entry b) := rfl
@[simp] theorem State.issuePlain_violation (op : OwnOp) (b : Byte) : (s.issuePlain op b).violation = s.violation := rfl
@[simp] theorem State.issuePlain_permit (op : OwnOp) (b : Byte) : (s.issuePlain op b).permit = s.permit := rfl
@[simp] theorem State.issuePlain_pulse (op : OwnOp) (b : Byte) : (s.issuePlain op b).pulse = s.pulse := rfl
@[simp] theorem State.issuePlain_recoverySwap (op : OwnOp) (b : Byte) : (s.issuePlain op b).recoverySwap = s.recoverySwap := rfl
@[simp] theorem State.issuePlain_report (op : OwnOp) (b : Byte) : (s.issuePlain op b).report = s.report := rfl
@[simp] theorem State.issuePlain_alerts (op : OwnOp) (b : Byte) : (s.issuePlain op b).alerts = s.alerts := rfl
@[simp] theorem State.issuePlain_pins (op : OwnOp) (b : Byte) : (s.issuePlain op b).pins = s.pins := rfl
@[simp] theorem State.issuePlain_response (op : OwnOp) (b : Byte) : (s.issuePlain op b).response = s.response := rfl

/-! ### flashSelect -/

@[simp] theorem State.flashSelect_pending (b : Bool) : (s.flashSelect b).pending = s.pending := rfl
@[simp] theorem State.flashSelect_resetN (b : Bool) : (s.flashSelect b).resetN = s.resetN := rfl
@[simp] theorem State.flashSelect_resetCause (b : Bool) : (s.flashSelect b).resetCause = s.resetCause := rfl
@[simp] theorem State.flashSelect_straps (b : Bool) : (s.flashSelect b).straps = s.straps := rfl
@[simp] theorem State.flashSelect_load (b : Bool) : (s.flashSelect b).load = s.load := rfl
@[simp] theorem State.flashSelect_prov (b : Bool) : (s.flashSelect b).prov = s.prov := rfl
@[simp] theorem State.flashSelect_sinceReset (b : Bool) : (s.flashSelect b).sinceReset = s.sinceReset := rfl
@[simp] theorem State.flashSelect_runElapsed (b : Bool) : (s.flashSelect b).runElapsed = s.runElapsed := rfl
@[simp] theorem State.flashSelect_store (b : Bool) : (s.flashSelect b).store = s.store := rfl
@[simp] theorem State.flashSelect_cfg (b : Bool) : (s.flashSelect b).cfg = s.cfg := rfl
@[simp] theorem State.flashSelect_synth (b : Bool) : (s.flashSelect b).synth = s.synth := rfl
@[simp] theorem State.flashSelect_keys (b : Bool) : (s.flashSelect b).keys = s.keys := rfl
@[simp] theorem State.flashSelect_regions (b : Bool) : (s.flashSelect b).regions = s.regions := rfl
@[simp] theorem State.flashSelect_pairs (b : Bool) : (s.flashSelect b).pairs = s.pairs := rfl
@[simp] theorem State.flashSelect_runtime (b : Bool) : (s.flashSelect b).runtime = s.runtime := rfl
@[simp] theorem State.flashSelect_runNumber (b : Bool) : (s.flashSelect b).runNumber = s.runNumber := rfl
@[simp] theorem State.flashSelect_queue (b : Bool) : (s.flashSelect b).queue = s.queue := rfl
@[simp] theorem State.flashSelect_deadline (b : Bool) : (s.flashSelect b).deadline = s.deadline := rfl
@[simp] theorem State.flashSelect_trans (b : Bool) : (s.flashSelect b).trans = s.trans := rfl
@[simp] theorem State.flashSelect_contexts (b : Bool) : (s.flashSelect b).contexts = s.contexts := rfl
@[simp] theorem State.flashSelect_sigList (b : Bool) : (s.flashSelect b).sigList = s.sigList := rfl
@[simp] theorem State.flashSelect_sigUnit (b : Bool) : (s.flashSelect b).sigUnit = s.sigUnit := rfl
@[simp] theorem State.flashSelect_up (b : Bool) : (s.flashSelect b).up = s.up := rfl
@[simp] theorem State.flashSelect_fp (b : Bool) : (s.flashSelect b).fp = { s.fp with select := b } := rfl
@[simp] theorem State.flashSelect_violation (b : Bool) : (s.flashSelect b).violation = s.violation := rfl
@[simp] theorem State.flashSelect_permit (b : Bool) : (s.flashSelect b).permit = s.permit := rfl
@[simp] theorem State.flashSelect_pulse (b : Bool) : (s.flashSelect b).pulse = s.pulse := rfl
@[simp] theorem State.flashSelect_recoverySwap (b : Bool) : (s.flashSelect b).recoverySwap = s.recoverySwap := rfl
@[simp] theorem State.flashSelect_report (b : Bool) : (s.flashSelect b).report = s.report := rfl
@[simp] theorem State.flashSelect_alerts (b : Bool) : (s.flashSelect b).alerts = s.alerts := rfl
@[simp] theorem State.flashSelect_pins (b : Bool) : (s.flashSelect b).pins = s.pins := rfl
@[simp] theorem State.flashSelect_response (b : Bool) : (s.flashSelect b).response = s.response := rfl

/-! ### send -/

@[simp] theorem State.send_pending (bs : List Byte) : (s.send bs).pending = s.pending := rfl
@[simp] theorem State.send_resetN (bs : List Byte) : (s.send bs).resetN = s.resetN := rfl
@[simp] theorem State.send_resetCause (bs : List Byte) : (s.send bs).resetCause = s.resetCause := rfl
@[simp] theorem State.send_straps (bs : List Byte) : (s.send bs).straps = s.straps := rfl
@[simp] theorem State.send_load (bs : List Byte) : (s.send bs).load = s.load := rfl
@[simp] theorem State.send_prov (bs : List Byte) : (s.send bs).prov = s.prov := rfl
@[simp] theorem State.send_sinceReset (bs : List Byte) : (s.send bs).sinceReset = s.sinceReset := rfl
@[simp] theorem State.send_runElapsed (bs : List Byte) : (s.send bs).runElapsed = s.runElapsed := rfl
@[simp] theorem State.send_store (bs : List Byte) : (s.send bs).store = s.store := rfl
@[simp] theorem State.send_cfg (bs : List Byte) : (s.send bs).cfg = s.cfg := rfl
@[simp] theorem State.send_synth (bs : List Byte) : (s.send bs).synth = s.synth := rfl
@[simp] theorem State.send_keys (bs : List Byte) : (s.send bs).keys = s.keys := rfl
@[simp] theorem State.send_regions (bs : List Byte) : (s.send bs).regions = s.regions := rfl
@[simp] theorem State.send_pairs (bs : List Byte) : (s.send bs).pairs = s.pairs := rfl
@[simp] theorem State.send_runtime (bs : List Byte) : (s.send bs).runtime = s.runtime := rfl
@[simp] theorem State.send_runNumber (bs : List Byte) : (s.send bs).runNumber = s.runNumber := rfl
@[simp] theorem State.send_queue (bs : List Byte) : (s.send bs).queue = s.queue := rfl
@[simp] theorem State.send_deadline (bs : List Byte) : (s.send bs).deadline = s.deadline := rfl
@[simp] theorem State.send_trans (bs : List Byte) : (s.send bs).trans = s.trans := rfl
@[simp] theorem State.send_contexts (bs : List Byte) : (s.send bs).contexts = s.contexts := rfl
@[simp] theorem State.send_sigList (bs : List Byte) : (s.send bs).sigList = s.sigList := rfl
@[simp] theorem State.send_sigUnit (bs : List Byte) : (s.send bs).sigUnit = s.sigUnit := rfl
@[simp] theorem State.send_up (bs : List Byte) : (s.send bs).up = s.up := rfl
@[simp] theorem State.send_fp (bs : List Byte) : (s.send bs).fp = { s.fp with sent := s.fp.sent ++ bs } := rfl
@[simp] theorem State.send_violation (bs : List Byte) : (s.send bs).violation = s.violation := rfl
@[simp] theorem State.send_permit (bs : List Byte) : (s.send bs).permit = s.permit := rfl
@[simp] theorem State.send_pulse (bs : List Byte) : (s.send bs).pulse = s.pulse := rfl
@[simp] theorem State.send_recoverySwap (bs : List Byte) : (s.send bs).recoverySwap = s.recoverySwap := rfl
@[simp] theorem State.send_report (bs : List Byte) : (s.send bs).report = s.report := rfl
@[simp] theorem State.send_alerts (bs : List Byte) : (s.send bs).alerts = s.alerts := rfl
@[simp] theorem State.send_pins (bs : List Byte) : (s.send bs).pins = s.pins := rfl
@[simp] theorem State.send_response (bs : List Byte) : (s.send bs).response = s.response := rfl

/-! ### setTx -/

@[simp] theorem State.setTx_pending (t : Option Tx) : (s.setTx t).pending = s.pending := rfl
@[simp] theorem State.setTx_resetN (t : Option Tx) : (s.setTx t).resetN = s.resetN := rfl
@[simp] theorem State.setTx_resetCause (t : Option Tx) : (s.setTx t).resetCause = s.resetCause := rfl
@[simp] theorem State.setTx_straps (t : Option Tx) : (s.setTx t).straps = s.straps := rfl
@[simp] theorem State.setTx_load (t : Option Tx) : (s.setTx t).load = s.load := rfl
@[simp] theorem State.setTx_prov (t : Option Tx) : (s.setTx t).prov = s.prov := rfl
@[simp] theorem State.setTx_sinceReset (t : Option Tx) : (s.setTx t).sinceReset = s.sinceReset := rfl
@[simp] theorem State.setTx_runElapsed (t : Option Tx) : (s.setTx t).runElapsed = s.runElapsed := rfl
@[simp] theorem State.setTx_store (t : Option Tx) : (s.setTx t).store = s.store := rfl
@[simp] theorem State.setTx_cfg (t : Option Tx) : (s.setTx t).cfg = s.cfg := rfl
@[simp] theorem State.setTx_synth (t : Option Tx) : (s.setTx t).synth = s.synth := rfl
@[simp] theorem State.setTx_keys (t : Option Tx) : (s.setTx t).keys = s.keys := rfl
@[simp] theorem State.setTx_regions (t : Option Tx) : (s.setTx t).regions = s.regions := rfl
@[simp] theorem State.setTx_pairs (t : Option Tx) : (s.setTx t).pairs = s.pairs := rfl
@[simp] theorem State.setTx_runtime (t : Option Tx) : (s.setTx t).runtime = s.runtime := rfl
@[simp] theorem State.setTx_runNumber (t : Option Tx) : (s.setTx t).runNumber = s.runNumber := rfl
@[simp] theorem State.setTx_queue (t : Option Tx) : (s.setTx t).queue = s.queue := rfl
@[simp] theorem State.setTx_deadline (t : Option Tx) : (s.setTx t).deadline = s.deadline := rfl
@[simp] theorem State.setTx_trans (t : Option Tx) : (s.setTx t).trans = s.trans := rfl
@[simp] theorem State.setTx_contexts (t : Option Tx) : (s.setTx t).contexts = s.contexts := rfl
@[simp] theorem State.setTx_sigList (t : Option Tx) : (s.setTx t).sigList = s.sigList := rfl
@[simp] theorem State.setTx_sigUnit (t : Option Tx) : (s.setTx t).sigUnit = s.sigUnit := rfl
@[simp] theorem State.setTx_up (t : Option Tx) : (s.setTx t).up = { s.up with tx := t } := rfl
@[simp] theorem State.setTx_fp (t : Option Tx) : (s.setTx t).fp = s.fp := rfl
@[simp] theorem State.setTx_violation (t : Option Tx) : (s.setTx t).violation = s.violation := rfl
@[simp] theorem State.setTx_permit (t : Option Tx) : (s.setTx t).permit = s.permit := rfl
@[simp] theorem State.setTx_pulse (t : Option Tx) : (s.setTx t).pulse = s.pulse := rfl
@[simp] theorem State.setTx_recoverySwap (t : Option Tx) : (s.setTx t).recoverySwap = s.recoverySwap := rfl
@[simp] theorem State.setTx_report (t : Option Tx) : (s.setTx t).report = s.report := rfl
@[simp] theorem State.setTx_alerts (t : Option Tx) : (s.setTx t).alerts = s.alerts := rfl
@[simp] theorem State.setTx_pins (t : Option Tx) : (s.setTx t).pins = s.pins := rfl
@[simp] theorem State.setTx_response (t : Option Tx) : (s.setTx t).response = s.response := rfl

/-! ### answer -/

@[simp] theorem State.answer_pending (b : Byte) (o : Origin) : (s.answer b o).pending = s.pending := rfl
@[simp] theorem State.answer_resetN (b : Byte) (o : Origin) : (s.answer b o).resetN = s.resetN := rfl
@[simp] theorem State.answer_resetCause (b : Byte) (o : Origin) : (s.answer b o).resetCause = s.resetCause := rfl
@[simp] theorem State.answer_straps (b : Byte) (o : Origin) : (s.answer b o).straps = s.straps := rfl
@[simp] theorem State.answer_load (b : Byte) (o : Origin) : (s.answer b o).load = s.load := rfl
@[simp] theorem State.answer_prov (b : Byte) (o : Origin) : (s.answer b o).prov = s.prov := rfl
@[simp] theorem State.answer_sinceReset (b : Byte) (o : Origin) : (s.answer b o).sinceReset = s.sinceReset := rfl
@[simp] theorem State.answer_runElapsed (b : Byte) (o : Origin) : (s.answer b o).runElapsed = s.runElapsed := rfl
@[simp] theorem State.answer_store (b : Byte) (o : Origin) : (s.answer b o).store = s.store := rfl
@[simp] theorem State.answer_cfg (b : Byte) (o : Origin) : (s.answer b o).cfg = s.cfg := rfl
@[simp] theorem State.answer_synth (b : Byte) (o : Origin) : (s.answer b o).synth = s.synth := rfl
@[simp] theorem State.answer_keys (b : Byte) (o : Origin) : (s.answer b o).keys = s.keys := rfl
@[simp] theorem State.answer_regions (b : Byte) (o : Origin) : (s.answer b o).regions = s.regions := rfl
@[simp] theorem State.answer_pairs (b : Byte) (o : Origin) : (s.answer b o).pairs = s.pairs := rfl
@[simp] theorem State.answer_runtime (b : Byte) (o : Origin) : (s.answer b o).runtime = s.runtime := rfl
@[simp] theorem State.answer_runNumber (b : Byte) (o : Origin) : (s.answer b o).runNumber = s.runNumber := rfl
@[simp] theorem State.answer_queue (b : Byte) (o : Origin) : (s.answer b o).queue = s.queue := rfl
@[simp] theorem State.answer_deadline (b : Byte) (o : Origin) : (s.answer b o).deadline = s.deadline := rfl
@[simp] theorem State.answer_trans (b : Byte) (o : Origin) : (s.answer b o).trans = s.trans := rfl
@[simp] theorem State.answer_contexts (b : Byte) (o : Origin) : (s.answer b o).contexts = s.contexts := rfl
@[simp] theorem State.answer_sigList (b : Byte) (o : Origin) : (s.answer b o).sigList = s.sigList := rfl
@[simp] theorem State.answer_sigUnit (b : Byte) (o : Origin) : (s.answer b o).sigUnit = s.sigUnit := rfl
@[simp] theorem State.answer_up (b : Byte) (o : Origin) : (s.answer b o).up = { s.up with out := some ⟨b, o⟩ } := rfl
@[simp] theorem State.answer_fp (b : Byte) (o : Origin) : (s.answer b o).fp = s.fp := rfl
@[simp] theorem State.answer_violation (b : Byte) (o : Origin) : (s.answer b o).violation = s.violation := rfl
@[simp] theorem State.answer_permit (b : Byte) (o : Origin) : (s.answer b o).permit = s.permit := rfl
@[simp] theorem State.answer_pulse (b : Byte) (o : Origin) : (s.answer b o).pulse = s.pulse := rfl
@[simp] theorem State.answer_recoverySwap (b : Byte) (o : Origin) : (s.answer b o).recoverySwap = s.recoverySwap := rfl
@[simp] theorem State.answer_report (b : Byte) (o : Origin) : (s.answer b o).report = s.report := rfl
@[simp] theorem State.answer_alerts (b : Byte) (o : Origin) : (s.answer b o).alerts = s.alerts := rfl
@[simp] theorem State.answer_pins (b : Byte) (o : Origin) : (s.answer b o).pins = s.pins := rfl
@[simp] theorem State.answer_response (b : Byte) (o : Origin) : (s.answer b o).response = s.response := rfl

/-! ### recordRefusal -/

@[simp] theorem State.recordRefusal_pending (cls : TxClass) (a : Option Nat) (cause : RefusalCause) :
    (s.recordRefusal cls a cause).pending = s.pending := rfl
@[simp] theorem State.recordRefusal_resetN (cls : TxClass) (a : Option Nat) (cause : RefusalCause) :
    (s.recordRefusal cls a cause).resetN = s.resetN := rfl
@[simp] theorem State.recordRefusal_resetCause (cls : TxClass) (a : Option Nat) (cause : RefusalCause) :
    (s.recordRefusal cls a cause).resetCause = s.resetCause := rfl
@[simp] theorem State.recordRefusal_straps (cls : TxClass) (a : Option Nat) (cause : RefusalCause) :
    (s.recordRefusal cls a cause).straps = s.straps := rfl
@[simp] theorem State.recordRefusal_load (cls : TxClass) (a : Option Nat) (cause : RefusalCause) :
    (s.recordRefusal cls a cause).load = s.load := rfl
@[simp] theorem State.recordRefusal_prov (cls : TxClass) (a : Option Nat) (cause : RefusalCause) :
    (s.recordRefusal cls a cause).prov = s.prov := rfl
@[simp] theorem State.recordRefusal_sinceReset (cls : TxClass) (a : Option Nat) (cause : RefusalCause) :
    (s.recordRefusal cls a cause).sinceReset = s.sinceReset := rfl
@[simp] theorem State.recordRefusal_runElapsed (cls : TxClass) (a : Option Nat) (cause : RefusalCause) :
    (s.recordRefusal cls a cause).runElapsed = s.runElapsed := rfl
@[simp] theorem State.recordRefusal_store (cls : TxClass) (a : Option Nat) (cause : RefusalCause) :
    (s.recordRefusal cls a cause).store = s.store := rfl
@[simp] theorem State.recordRefusal_cfg (cls : TxClass) (a : Option Nat) (cause : RefusalCause) :
    (s.recordRefusal cls a cause).cfg = s.cfg := rfl
@[simp] theorem State.recordRefusal_synth (cls : TxClass) (a : Option Nat) (cause : RefusalCause) :
    (s.recordRefusal cls a cause).synth = s.synth := rfl
@[simp] theorem State.recordRefusal_keys (cls : TxClass) (a : Option Nat) (cause : RefusalCause) :
    (s.recordRefusal cls a cause).keys = s.keys := rfl
@[simp] theorem State.recordRefusal_regions (cls : TxClass) (a : Option Nat) (cause : RefusalCause) :
    (s.recordRefusal cls a cause).regions = s.regions := rfl
@[simp] theorem State.recordRefusal_pairs (cls : TxClass) (a : Option Nat) (cause : RefusalCause) :
    (s.recordRefusal cls a cause).pairs = s.pairs := rfl
@[simp] theorem State.recordRefusal_runtime (cls : TxClass) (a : Option Nat) (cause : RefusalCause) :
    (s.recordRefusal cls a cause).runtime = s.runtime := rfl
@[simp] theorem State.recordRefusal_runNumber (cls : TxClass) (a : Option Nat) (cause : RefusalCause) :
    (s.recordRefusal cls a cause).runNumber = s.runNumber := rfl
@[simp] theorem State.recordRefusal_queue (cls : TxClass) (a : Option Nat) (cause : RefusalCause) :
    (s.recordRefusal cls a cause).queue = s.queue := rfl
@[simp] theorem State.recordRefusal_deadline (cls : TxClass) (a : Option Nat) (cause : RefusalCause) :
    (s.recordRefusal cls a cause).deadline = s.deadline := rfl
@[simp] theorem State.recordRefusal_trans (cls : TxClass) (a : Option Nat) (cause : RefusalCause) :
    (s.recordRefusal cls a cause).trans = s.trans := rfl
@[simp] theorem State.recordRefusal_contexts (cls : TxClass) (a : Option Nat) (cause : RefusalCause) :
    (s.recordRefusal cls a cause).contexts = s.contexts := rfl
@[simp] theorem State.recordRefusal_sigList (cls : TxClass) (a : Option Nat) (cause : RefusalCause) :
    (s.recordRefusal cls a cause).sigList = s.sigList := rfl
@[simp] theorem State.recordRefusal_sigUnit (cls : TxClass) (a : Option Nat) (cause : RefusalCause) :
    (s.recordRefusal cls a cause).sigUnit = s.sigUnit := rfl
@[simp] theorem State.recordRefusal_up (cls : TxClass) (a : Option Nat) (cause : RefusalCause) :
    (s.recordRefusal cls a cause).up = s.up := rfl
@[simp] theorem State.recordRefusal_fp (cls : TxClass) (a : Option Nat) (cause : RefusalCause) :
    (s.recordRefusal cls a cause).fp = s.fp := rfl
@[simp] theorem State.recordRefusal_violation (cls : TxClass) (a : Option Nat) (cause : RefusalCause) :
    (s.recordRefusal cls a cause).violation = ⟨bump s.violation.count, some ⟨cls, a, cause⟩⟩ := rfl
@[simp] theorem State.recordRefusal_permit (cls : TxClass) (a : Option Nat) (cause : RefusalCause) :
    (s.recordRefusal cls a cause).permit = s.permit := rfl
@[simp] theorem State.recordRefusal_pulse (cls : TxClass) (a : Option Nat) (cause : RefusalCause) :
    (s.recordRefusal cls a cause).pulse = s.pulse := rfl
@[simp] theorem State.recordRefusal_recoverySwap (cls : TxClass) (a : Option Nat) (cause : RefusalCause) :
    (s.recordRefusal cls a cause).recoverySwap = s.recoverySwap := rfl
@[simp] theorem State.recordRefusal_report (cls : TxClass) (a : Option Nat) (cause : RefusalCause) :
    (s.recordRefusal cls a cause).report = s.report := rfl
@[simp] theorem State.recordRefusal_alerts (cls : TxClass) (a : Option Nat) (cause : RefusalCause) :
    (s.recordRefusal cls a cause).alerts = { s.alerts with violation := true } := rfl
@[simp] theorem State.recordRefusal_pins (cls : TxClass) (a : Option Nat) (cause : RefusalCause) :
    (s.recordRefusal cls a cause).pins = s.pins := rfl
@[simp] theorem State.recordRefusal_response (cls : TxClass) (a : Option Nat) (cause : RefusalCause) :
    (s.recordRefusal cls a cause).response = s.response := rfl

/-! ### endRun -/

@[simp] theorem State.endRun_pending (p : PermitState) : (s.endRun p).pending = s.pending := rfl
@[simp] theorem State.endRun_resetN (p : PermitState) : (s.endRun p).resetN = s.resetN := rfl
@[simp] theorem State.endRun_resetCause (p : PermitState) : (s.endRun p).resetCause = s.resetCause := rfl
@[simp] theorem State.endRun_straps (p : PermitState) : (s.endRun p).straps = s.straps := rfl
@[simp] theorem State.endRun_load (p : PermitState) : (s.endRun p).load = s.load := rfl
@[simp] theorem State.endRun_prov (p : PermitState) : (s.endRun p).prov = s.prov := rfl
@[simp] theorem State.endRun_sinceReset (p : PermitState) : (s.endRun p).sinceReset = s.sinceReset := rfl
@[simp] theorem State.endRun_runElapsed (p : PermitState) : (s.endRun p).runElapsed = s.runElapsed := rfl
@[simp] theorem State.endRun_store (p : PermitState) : (s.endRun p).store = s.store := rfl
@[simp] theorem State.endRun_cfg (p : PermitState) : (s.endRun p).cfg = s.cfg := rfl
@[simp] theorem State.endRun_synth (p : PermitState) : (s.endRun p).synth = s.synth := rfl
@[simp] theorem State.endRun_keys (p : PermitState) : (s.endRun p).keys = s.keys := rfl
@[simp] theorem State.endRun_regions (p : PermitState) : (s.endRun p).regions = s.regions := rfl
@[simp] theorem State.endRun_pairs (p : PermitState) : (s.endRun p).pairs = s.pairs := rfl
@[simp] theorem State.endRun_runtime (p : PermitState) : (s.endRun p).runtime = s.runtime := rfl
@[simp] theorem State.endRun_runNumber (p : PermitState) : (s.endRun p).runNumber = s.runNumber := rfl
@[simp] theorem State.endRun_queue (p : PermitState) : (s.endRun p).queue = s.queue := rfl
@[simp] theorem State.endRun_deadline (p : PermitState) : (s.endRun p).deadline = none := rfl
@[simp] theorem State.endRun_trans (p : PermitState) : (s.endRun p).trans = s.trans := rfl
@[simp] theorem State.endRun_contexts (p : PermitState) : (s.endRun p).contexts = s.contexts := rfl
@[simp] theorem State.endRun_sigList (p : PermitState) : (s.endRun p).sigList = s.sigList := rfl
@[simp] theorem State.endRun_sigUnit (p : PermitState) : (s.endRun p).sigUnit = s.sigUnit := rfl
@[simp] theorem State.endRun_up (p : PermitState) : (s.endRun p).up = s.up := rfl
@[simp] theorem State.endRun_fp (p : PermitState) : (s.endRun p).fp = s.fp := rfl
@[simp] theorem State.endRun_violation (p : PermitState) : (s.endRun p).violation = s.violation := rfl
@[simp] theorem State.endRun_permit (p : PermitState) : (s.endRun p).permit = p := rfl
@[simp] theorem State.endRun_pulse (p : PermitState) : (s.endRun p).pulse = s.pulse := rfl
@[simp] theorem State.endRun_recoverySwap (p : PermitState) : (s.endRun p).recoverySwap = s.recoverySwap := rfl
@[simp] theorem State.endRun_report (p : PermitState) :
    (s.endRun p).report = s.report.map fun r => { r with duration := some s.runDuration } := rfl
@[simp] theorem State.endRun_alerts (p : PermitState) :
    (s.endRun p).alerts = { s.alerts with resultUnread := true, denied := s.alerts.denied || p == .denied } := rfl
@[simp] theorem State.endRun_pins (p : PermitState) : (s.endRun p).pins = s.pins := rfl
@[simp] theorem State.endRun_response (p : PermitState) : (s.endRun p).response = s.response := rfl

/-! ### drive -/

@[simp] theorem State.drive_pending : (s.drive).pending = s.pending := rfl
@[simp] theorem State.drive_resetN : (s.drive).resetN = s.resetN := rfl
@[simp] theorem State.drive_resetCause : (s.drive).resetCause = s.resetCause := rfl
@[simp] theorem State.drive_straps : (s.drive).straps = s.straps := rfl
@[simp] theorem State.drive_load : (s.drive).load = s.load := rfl
@[simp] theorem State.drive_prov : (s.drive).prov = s.prov := rfl
@[simp] theorem State.drive_sinceReset : (s.drive).sinceReset = s.sinceReset := rfl
@[simp] theorem State.drive_runElapsed : (s.drive).runElapsed = s.runElapsed := rfl
@[simp] theorem State.drive_store : (s.drive).store = s.store := rfl
@[simp] theorem State.drive_cfg : (s.drive).cfg = s.cfg := rfl
@[simp] theorem State.drive_synth : (s.drive).synth = s.synth := rfl
@[simp] theorem State.drive_keys : (s.drive).keys = s.keys := rfl
@[simp] theorem State.drive_regions : (s.drive).regions = s.regions := rfl
@[simp] theorem State.drive_pairs : (s.drive).pairs = s.pairs := rfl
@[simp] theorem State.drive_runtime : (s.drive).runtime = s.runtime := rfl
@[simp] theorem State.drive_runNumber : (s.drive).runNumber = s.runNumber := rfl
@[simp] theorem State.drive_queue : (s.drive).queue = s.queue := rfl
@[simp] theorem State.drive_deadline : (s.drive).deadline = s.deadline := rfl
@[simp] theorem State.drive_trans : (s.drive).trans = s.trans := rfl
@[simp] theorem State.drive_contexts : (s.drive).contexts = s.contexts := rfl
@[simp] theorem State.drive_sigList : (s.drive).sigList = s.sigList := rfl
@[simp] theorem State.drive_sigUnit : (s.drive).sigUnit = s.sigUnit := rfl
@[simp] theorem State.drive_up : (s.drive).up = s.up := rfl
@[simp] theorem State.drive_fp : (s.drive).fp = s.fp := rfl
@[simp] theorem State.drive_violation : (s.drive).violation = s.violation := rfl
@[simp] theorem State.drive_permit : (s.drive).permit = s.permit := rfl
@[simp] theorem State.drive_pulse : (s.drive).pulse = s.nextPulse := rfl
@[simp] theorem State.drive_recoverySwap : (s.drive).recoverySwap = s.recoverySwap := rfl
@[simp] theorem State.drive_report : (s.drive).report = s.report := rfl
@[simp] theorem State.drive_alerts : (s.drive).alerts = s.alerts := rfl
@[simp] theorem State.drive_pins :
    (s.drive).pins = ⟨s.holdCondition || s.nextPulse.isRunning, s.permit == .permitted, s.cfg.alertEnable && s.alerts.any, s.permit != .unprovisioned⟩ := rfl
@[simp] theorem State.drive_response : (s.drive).response = s.response := rfl

/-! ### elapse -/

@[simp] theorem State.elapse_pending (d : Nat) : (s.elapse d).pending = s.pending := rfl
@[simp] theorem State.elapse_resetN (d : Nat) : (s.elapse d).resetN = s.resetN := rfl
@[simp] theorem State.elapse_resetCause (d : Nat) : (s.elapse d).resetCause = s.resetCause := rfl
@[simp] theorem State.elapse_straps (d : Nat) : (s.elapse d).straps = s.straps := rfl
@[simp] theorem State.elapse_load (d : Nat) : (s.elapse d).load = s.load := rfl
@[simp] theorem State.elapse_prov (d : Nat) : (s.elapse d).prov = s.prov.lapse d := rfl
@[simp] theorem State.elapse_sinceReset (d : Nat) : (s.elapse d).sinceReset = s.sinceReset + d := rfl
@[simp] theorem State.elapse_runElapsed (d : Nat) : (s.elapse d).runElapsed = s.runElapsed + d := rfl
@[simp] theorem State.elapse_store (d : Nat) : (s.elapse d).store = s.store := rfl
@[simp] theorem State.elapse_cfg (d : Nat) : (s.elapse d).cfg = s.cfg := rfl
@[simp] theorem State.elapse_synth (d : Nat) : (s.elapse d).synth = s.synth := rfl
@[simp] theorem State.elapse_keys (d : Nat) :
    (s.elapse d).keys = { s.keys with burn := s.keys.burn.map fun b => { b with remaining := b.remaining - d } } := rfl
@[simp] theorem State.elapse_regions (d : Nat) : (s.elapse d).regions = s.regions := rfl
@[simp] theorem State.elapse_pairs (d : Nat) : (s.elapse d).pairs = s.pairs := rfl
@[simp] theorem State.elapse_runtime (d : Nat) : (s.elapse d).runtime = s.runtime := rfl
@[simp] theorem State.elapse_runNumber (d : Nat) : (s.elapse d).runNumber = s.runNumber := rfl
@[simp] theorem State.elapse_queue (d : Nat) : (s.elapse d).queue = s.queue := rfl
@[simp] theorem State.elapse_deadline (d : Nat) : (s.elapse d).deadline = Sys2Proof.Machine.lapse d s.deadline := rfl
@[simp] theorem State.elapse_trans (d : Nat) : (s.elapse d).trans = s.trans := rfl
@[simp] theorem State.elapse_contexts (d : Nat) : (s.elapse d).contexts = s.contexts := rfl
@[simp] theorem State.elapse_sigList (d : Nat) : (s.elapse d).sigList = s.sigList := rfl
@[simp] theorem State.elapse_sigUnit (d : Nat) : (s.elapse d).sigUnit = s.sigUnit.lapse d := rfl
@[simp] theorem State.elapse_up (d : Nat) : (s.elapse d).up = s.up := rfl
@[simp] theorem State.elapse_fp (d : Nat) :
    (s.elapse d).fp = { s.fp with wakeWait := Sys2Proof.Machine.lapse d s.fp.wakeWait, pollWait := Sys2Proof.Machine.lapse d s.fp.pollWait } := rfl
@[simp] theorem State.elapse_violation (d : Nat) : (s.elapse d).violation = s.violation := rfl
@[simp] theorem State.elapse_permit (d : Nat) : (s.elapse d).permit = s.permit := rfl
@[simp] theorem State.elapse_pulse (d : Nat) : (s.elapse d).pulse = s.pulse.lapse d := rfl
@[simp] theorem State.elapse_recoverySwap (d : Nat) : (s.elapse d).recoverySwap = s.recoverySwap := rfl
@[simp] theorem State.elapse_report (d : Nat) : (s.elapse d).report = s.report := rfl
@[simp] theorem State.elapse_alerts (d : Nat) : (s.elapse d).alerts = s.alerts := rfl
@[simp] theorem State.elapse_pins (d : Nat) : (s.elapse d).pins = s.pins := rfl
@[simp] theorem State.elapse_response (d : Nat) : (s.elapse d).response = s.response := rfl

/-! ### startBurn -/

@[simp] theorem State.startBurn_pending (job : BurnJob) : (s.startBurn job).pending = s.pending := rfl
@[simp] theorem State.startBurn_resetN (job : BurnJob) : (s.startBurn job).resetN = s.resetN := rfl
@[simp] theorem State.startBurn_resetCause (job : BurnJob) : (s.startBurn job).resetCause = s.resetCause := rfl
@[simp] theorem State.startBurn_straps (job : BurnJob) : (s.startBurn job).straps = s.straps := rfl
@[simp] theorem State.startBurn_load (job : BurnJob) : (s.startBurn job).load = s.load := rfl
@[simp] theorem State.startBurn_prov (job : BurnJob) : (s.startBurn job).prov = s.prov := rfl
@[simp] theorem State.startBurn_sinceReset (job : BurnJob) : (s.startBurn job).sinceReset = s.sinceReset := rfl
@[simp] theorem State.startBurn_runElapsed (job : BurnJob) : (s.startBurn job).runElapsed = s.runElapsed := rfl
@[simp] theorem State.startBurn_store (job : BurnJob) : (s.startBurn job).store = s.store := rfl
@[simp] theorem State.startBurn_cfg (job : BurnJob) : (s.startBurn job).cfg = s.cfg := rfl
@[simp] theorem State.startBurn_synth (job : BurnJob) : (s.startBurn job).synth = s.synth := rfl
@[simp] theorem State.startBurn_keys (job : BurnJob) : (s.startBurn job).keys = { s.keys with burn := some ⟨job, 500⟩ } := rfl
@[simp] theorem State.startBurn_regions (job : BurnJob) : (s.startBurn job).regions = s.regions := rfl
@[simp] theorem State.startBurn_pairs (job : BurnJob) : (s.startBurn job).pairs = s.pairs := rfl
@[simp] theorem State.startBurn_runtime (job : BurnJob) : (s.startBurn job).runtime = s.runtime := rfl
@[simp] theorem State.startBurn_runNumber (job : BurnJob) : (s.startBurn job).runNumber = s.runNumber := rfl
@[simp] theorem State.startBurn_queue (job : BurnJob) : (s.startBurn job).queue = s.queue := rfl
@[simp] theorem State.startBurn_deadline (job : BurnJob) : (s.startBurn job).deadline = s.deadline := rfl
@[simp] theorem State.startBurn_trans (job : BurnJob) : (s.startBurn job).trans = s.trans := rfl
@[simp] theorem State.startBurn_contexts (job : BurnJob) : (s.startBurn job).contexts = s.contexts := rfl
@[simp] theorem State.startBurn_sigList (job : BurnJob) : (s.startBurn job).sigList = s.sigList := rfl
@[simp] theorem State.startBurn_sigUnit (job : BurnJob) : (s.startBurn job).sigUnit = s.sigUnit := rfl
@[simp] theorem State.startBurn_up (job : BurnJob) : (s.startBurn job).up = s.up := rfl
@[simp] theorem State.startBurn_fp (job : BurnJob) : (s.startBurn job).fp = s.fp := rfl
@[simp] theorem State.startBurn_violation (job : BurnJob) : (s.startBurn job).violation = s.violation := rfl
@[simp] theorem State.startBurn_permit (job : BurnJob) : (s.startBurn job).permit = s.permit := rfl
@[simp] theorem State.startBurn_pulse (job : BurnJob) : (s.startBurn job).pulse = s.pulse := rfl
@[simp] theorem State.startBurn_recoverySwap (job : BurnJob) : (s.startBurn job).recoverySwap = s.recoverySwap := rfl
@[simp] theorem State.startBurn_report (job : BurnJob) : (s.startBurn job).report = s.report := rfl
@[simp] theorem State.startBurn_alerts (job : BurnJob) : (s.startBurn job).alerts = s.alerts := rfl
@[simp] theorem State.startBurn_pins (job : BurnJob) : (s.startBurn job).pins = s.pins := rfl
@[simp] theorem State.startBurn_response (job : BurnJob) : (s.startBurn job).response = s.response := rfl

/-! ### place -/

@[simp] theorem State.place_pending (code arg : Byte) (status : Status) (data : List Byte) :
    (s.place code arg status data).pending = s.pending := rfl
@[simp] theorem State.place_resetN (code arg : Byte) (status : Status) (data : List Byte) :
    (s.place code arg status data).resetN = s.resetN := rfl
@[simp] theorem State.place_resetCause (code arg : Byte) (status : Status) (data : List Byte) :
    (s.place code arg status data).resetCause = s.resetCause := rfl
@[simp] theorem State.place_straps (code arg : Byte) (status : Status) (data : List Byte) :
    (s.place code arg status data).straps = s.straps := rfl
@[simp] theorem State.place_load (code arg : Byte) (status : Status) (data : List Byte) :
    (s.place code arg status data).load = s.load := rfl
@[simp] theorem State.place_prov (code arg : Byte) (status : Status) (data : List Byte) :
    (s.place code arg status data).prov = s.prov := rfl
@[simp] theorem State.place_sinceReset (code arg : Byte) (status : Status) (data : List Byte) :
    (s.place code arg status data).sinceReset = s.sinceReset := rfl
@[simp] theorem State.place_runElapsed (code arg : Byte) (status : Status) (data : List Byte) :
    (s.place code arg status data).runElapsed = s.runElapsed := rfl
@[simp] theorem State.place_store (code arg : Byte) (status : Status) (data : List Byte) :
    (s.place code arg status data).store = s.store := rfl
@[simp] theorem State.place_cfg (code arg : Byte) (status : Status) (data : List Byte) : (s.place code arg status data).cfg = s.cfg := rfl
@[simp] theorem State.place_synth (code arg : Byte) (status : Status) (data : List Byte) :
    (s.place code arg status data).synth = s.synth := rfl
@[simp] theorem State.place_keys (code arg : Byte) (status : Status) (data : List Byte) :
    (s.place code arg status data).keys = s.keys := rfl
@[simp] theorem State.place_regions (code arg : Byte) (status : Status) (data : List Byte) :
    (s.place code arg status data).regions = s.regions := rfl
@[simp] theorem State.place_pairs (code arg : Byte) (status : Status) (data : List Byte) :
    (s.place code arg status data).pairs = s.pairs := rfl
@[simp] theorem State.place_runtime (code arg : Byte) (status : Status) (data : List Byte) :
    (s.place code arg status data).runtime = s.runtime := rfl
@[simp] theorem State.place_runNumber (code arg : Byte) (status : Status) (data : List Byte) :
    (s.place code arg status data).runNumber = s.runNumber := rfl
@[simp] theorem State.place_queue (code arg : Byte) (status : Status) (data : List Byte) :
    (s.place code arg status data).queue = s.queue := rfl
@[simp] theorem State.place_deadline (code arg : Byte) (status : Status) (data : List Byte) :
    (s.place code arg status data).deadline = s.deadline := rfl
@[simp] theorem State.place_trans (code arg : Byte) (status : Status) (data : List Byte) :
    (s.place code arg status data).trans = s.trans := rfl
@[simp] theorem State.place_contexts (code arg : Byte) (status : Status) (data : List Byte) :
    (s.place code arg status data).contexts = s.contexts := rfl
@[simp] theorem State.place_sigList (code arg : Byte) (status : Status) (data : List Byte) :
    (s.place code arg status data).sigList = s.sigList := rfl
@[simp] theorem State.place_sigUnit (code arg : Byte) (status : Status) (data : List Byte) :
    (s.place code arg status data).sigUnit = s.sigUnit := rfl
@[simp] theorem State.place_up (code arg : Byte) (status : Status) (data : List Byte) : (s.place code arg status data).up = s.up := rfl
@[simp] theorem State.place_fp (code arg : Byte) (status : Status) (data : List Byte) : (s.place code arg status data).fp = s.fp := rfl
@[simp] theorem State.place_violation (code arg : Byte) (status : Status) (data : List Byte) :
    (s.place code arg status data).violation = s.violation := rfl
@[simp] theorem State.place_permit (code arg : Byte) (status : Status) (data : List Byte) :
    (s.place code arg status data).permit = s.permit := rfl
@[simp] theorem State.place_pulse (code arg : Byte) (status : Status) (data : List Byte) :
    (s.place code arg status data).pulse = s.pulse := rfl
@[simp] theorem State.place_recoverySwap (code arg : Byte) (status : Status) (data : List Byte) :
    (s.place code arg status data).recoverySwap = s.recoverySwap := rfl
@[simp] theorem State.place_report (code arg : Byte) (status : Status) (data : List Byte) :
    (s.place code arg status data).report = s.report := rfl
@[simp] theorem State.place_alerts (code arg : Byte) (status : Status) (data : List Byte) :
    (s.place code arg status data).alerts = s.alerts := rfl
@[simp] theorem State.place_pins (code arg : Byte) (status : Status) (data : List Byte) :
    (s.place code arg status data).pins = s.pins := rfl
@[simp] theorem State.place_response (code arg : Byte) (status : Status) (data : List Byte) :
    (s.place code arg status data).response = some ⟨[code, arg, status.code, flagBit 0 (s.response.any fun r => !r.fetched)] ++ data, false⟩ := rfl

/-! ### clearReported -/

@[simp] theorem State.clearReported_pending : (s.clearReported).pending = s.pending := rfl
@[simp] theorem State.clearReported_resetN : (s.clearReported).resetN = s.resetN := rfl
@[simp] theorem State.clearReported_resetCause : (s.clearReported).resetCause = s.resetCause := rfl
@[simp] theorem State.clearReported_straps : (s.clearReported).straps = s.straps := rfl
@[simp] theorem State.clearReported_load : (s.clearReported).load = s.load := rfl
@[simp] theorem State.clearReported_prov : (s.clearReported).prov = s.prov := rfl
@[simp] theorem State.clearReported_sinceReset : (s.clearReported).sinceReset = s.sinceReset := rfl
@[simp] theorem State.clearReported_runElapsed : (s.clearReported).runElapsed = s.runElapsed := rfl
@[simp] theorem State.clearReported_store : (s.clearReported).store = s.store := rfl
@[simp] theorem State.clearReported_cfg : (s.clearReported).cfg = s.cfg := rfl
@[simp] theorem State.clearReported_synth : (s.clearReported).synth = s.synth := rfl
@[simp] theorem State.clearReported_keys : (s.clearReported).keys = s.keys := rfl
@[simp] theorem State.clearReported_regions : (s.clearReported).regions = s.regions := rfl
@[simp] theorem State.clearReported_pairs : (s.clearReported).pairs = s.pairs := rfl
@[simp] theorem State.clearReported_runtime : (s.clearReported).runtime = s.runtime := rfl
@[simp] theorem State.clearReported_runNumber : (s.clearReported).runNumber = s.runNumber := rfl
@[simp] theorem State.clearReported_queue : (s.clearReported).queue = s.queue := rfl
@[simp] theorem State.clearReported_deadline : (s.clearReported).deadline = s.deadline := rfl
@[simp] theorem State.clearReported_trans : (s.clearReported).trans = s.trans := rfl
@[simp] theorem State.clearReported_contexts : (s.clearReported).contexts = s.contexts := rfl
@[simp] theorem State.clearReported_sigList : (s.clearReported).sigList = s.sigList := rfl
@[simp] theorem State.clearReported_sigUnit : (s.clearReported).sigUnit = s.sigUnit := rfl
@[simp] theorem State.clearReported_up : (s.clearReported).up = s.up := rfl
@[simp] theorem State.clearReported_fp : (s.clearReported).fp = s.fp := rfl
@[simp] theorem State.clearReported_violation : (s.clearReported).violation = ⟨0, none⟩ := rfl
@[simp] theorem State.clearReported_permit : (s.clearReported).permit = s.permit := rfl
@[simp] theorem State.clearReported_pulse : (s.clearReported).pulse = s.pulse := rfl
@[simp] theorem State.clearReported_recoverySwap : (s.clearReported).recoverySwap = s.recoverySwap := rfl
@[simp] theorem State.clearReported_report : (s.clearReported).report = s.report := rfl
@[simp] theorem State.clearReported_alerts : (s.clearReported).alerts = { s.alerts with resultUnread := false, violation := false } := rfl
@[simp] theorem State.clearReported_pins : (s.clearReported).pins = s.pins := rfl
@[simp] theorem State.clearReported_response : (s.clearReported).response = s.response := rfl

end Sys2Proof.Machine
end

