-- ==== Sys2Proof/Laws/Settle.lean ====
section
/-! SUPPORT. What the operations that close an event can change, once and for all: the mode's settling, the arbiter, the grants, the
signature unit's take, the permit decision, the recovery decision, and their composition `settle`; with them the connected lines of PASS-THROUGH
and the attempts in progress. Each frame lemma says that the state
after is the state before with the named fields replaced; a field not named is unchanged. -/

namespace Sys2Proof.Machine

variable (s : State)

/-! ## Mode and arbiter -/

theorem settleMode_eq : s.settleMode = { s with up := { s.up with mode := if s.up.select then s.up.mode else s.permit.mode } } := by
  unfold State.settleMode
  cases h : s.up.select
  · rfl
  · rfl

/-- What the arbiter can do: nothing, or set the flash OWN with one of its five instructions, on a flash that was FREE in a running permit
state. -/
theorem arbitrate_cases : s.arbitrate = s ∨ (s.fp.holder = .free ∧ s.permit.running = true
    ∧ ∃ op last sent shape, op ≠ .bootstrap ∧ s.arbitrate =
        { s with fp := { s.fp with holder := .own op, select := true, sent, shape, lastServed := last } }) := by
  unfold State.arbitrate
  split
  · rename_i h
    unfold State.issueDue State.issuePlain State.issueBurst
    dsimp only
    repeat' split
    all_goals first
      | exact .inl rfl
      | exact .inr ⟨h.1, h.2, _, _, _, _, by simp, rfl⟩
  · exact .inl rfl

/-- The arbiter changes nothing but the flash port. -/
theorem arbitrate_eq : s.arbitrate = { s with fp := s.arbitrate.fp } := by
  rcases arbitrate_cases s with h | ⟨-, -, _, _, _, _, -, h⟩ <;> rw [h]

/-- The arbiter leaves the shadow and the two waits. -/
theorem arbitrate_fp : s.arbitrate.fp.shadow = s.fp.shadow ∧ s.arbitrate.fp.wakeWait = s.fp.wakeWait
    ∧ s.arbitrate.fp.pollWait = s.fp.pollWait := by
  rcases arbitrate_cases s with h | ⟨-, -, _, _, _, _, -, h⟩ <;> rw [h] <;> exact ⟨rfl, rfl, rfl⟩

theorem arbitrate_of_held (h : s.fp.holder ≠ .free) : s.arbitrate = s := by
  rcases arbitrate_cases s with h' | h'
  · exact h'
  · exact absurd h'.1 h

theorem arbitrate_of_not_running (h : s.permit.running = false) : s.arbitrate = s := by
  rcases arbitrate_cases s with h' | h'
  · exact h'
  · simp [h] at h'

/-! ## Grants -/

theorem foldl_enterHeader_eq (c : Fin 4) (is : List Nat) (t : State) :
    is.foldl (fun t i => t.enterHeader c i) t
      = { t with runtime := (is.foldl (fun t i => t.enterHeader c i) t).runtime } := by
  induction is generalizing t with
  | nil => rfl
  | cons i is ih =>
    simp only [List.foldl_cons]
    rw [ih]
    simp

theorem grantOne_eq : s.grantOne
    = { s with queue := s.grantOne.queue, contexts := s.grantOne.contexts, runtime := s.grantOne.runtime } := by
  unfold State.grantOne
  split
  · rw [foldl_enterHeader_eq]
    simp
  · rfl

theorem grants_eq : s.grants = { s with queue := s.grants.queue, contexts := s.grants.contexts, runtime := s.grants.runtime } := by
  unfold State.grants
  rw [grantOne_eq s.grantOne.grantOne.grantOne, grantOne_eq s.grantOne.grantOne, grantOne_eq s.grantOne, grantOne_eq s]

/-- With no context free, or no owner waiting, nothing is granted. -/
theorem grantOne_of_no_free (h : s.freeCtx = none) : s.grantOne = s := by
  unfold State.grantOne
  rw [h]
  split <;> simp_all

theorem grantOne_of_empty (h : s.queue = []) : s.grantOne = s := by
  unfold State.grantOne
  rw [h]

/-- A grant takes the head of the queue and fills the lowest free context. -/
theorem grantOne_of_both {o : Owner} {rest : List Owner} {c : Fin 4} (hq : s.queue = o :: rest) (hc : s.freeCtx = some c) :
    s.grantOne.queue = rest ∧ s.grantOne.contexts = s.contexts.set c (some (s.grantedCtx o)) := by
  unfold State.grantOne
  simp only [hq, hc]
  rw [foldl_enterHeader_eq]
  exact ⟨rfl, rfl⟩

theorem freeCtx_none_iff : s.freeCtx = none ↔ ∀ c : Fin 4, (s.ctx c).isSome = true := by
  simp [State.freeCtx, Option.isSome_iff_ne_none]

/-! ## Bursts -/

/-- A context needs bytes while it wants some and gathers manifests, or is in PAYLOAD for a region that is HASHING in it (R61, R63). -/
theorem needsBytes_iff (c : Fin 4) : s.needsBytes c = true ↔
    ∃ x, s.ctx c = some x ∧ 0 < x.wanted ∧
      (x.phase = .header
        ∨ x.phase = .payload ∧ ∃ i y, s.payloadOf x = some i ∧ s.rt i = some y ∧ y.state = .hashing ∧ y.context = some c) := by
  unfold State.needsBytes State.hashing
  cases h : s.ctx c with
  | none => simp
  | some x =>
    cases hp : x.phase
    · simp [hp]
    · cases ho : s.payloadOf x with
      | none => simp [hp, ho]
      | some i => cases hr : s.rt i <;> simp [hp, ho, hr, State.hashesIn]

/-- The length of a payload's burst (R65). -/
theorem burstLength_payload {x : Ctx} (h : x.phase = .payload) : s.burstLength x = min (256 * 2 ^ s.cfg.burstExp) x.wanted := by
  simp [State.burstLength, State.burstSize, h]

/-- The length of a burst that gathers a manifest of which `m.bytes` are held (R65). -/
theorem burstLength_header {x : Ctx} {m : Manifest} (h : x.phase = .header) (hm : x.gathering = some m) :
    s.burstLength x = min (256 * 2 ^ s.cfg.burstExp) (80 - m.bytes.length) := by
  simp [State.burstLength, State.burstSize, h, hm]

/-! ## Signature unit, permit, recovery, outputs -/

theorem takeCheck_eq : s.takeCheck = { s with sigList := s.takeCheck.sigList, sigUnit := s.takeCheck.sigUnit } := by
  unfold State.takeCheck
  split <;> rfl

/-- After the take, an IDLE unit has an empty list. -/
theorem takeCheck_work (h : s.takeCheck.sigUnit = .idle) : s.takeCheck.sigList = [] := by
  unfold State.takeCheck at h ⊢
  cases hu : s.sigUnit with
  | checking => simp [hu] at h
  | idle => cases hl : s.sigList with
    | nil => simp [hl]
    | cons => simp [hu, hl] at h

theorem decidePermit_eq : s.decidePermit
    = { s with permit := s.decidePermit.permit, deadline := s.decidePermit.deadline, report := s.decidePermit.report,
               alerts := s.decidePermit.alerts } := by
  unfold State.decidePermit
  repeat' split
  all_goals rfl

/-- The permit decision: a run ends in VERIFYING alone, PERMITTED before DENIED. -/
theorem decidePermit_cases :
    (s.decidePermit = s ∧ (s.permit = .verifying → s.permitCondition = false ∧ s.denialCondition = false))
      ∨ (s.permit = .verifying ∧ s.permitCondition = true ∧ s.decidePermit = s.endRun .permitted)
      ∨ (s.permit = .verifying ∧ s.permitCondition = false ∧ s.denialCondition = true ∧ s.decidePermit = s.endRun .denied) := by
  unfold State.decidePermit
  by_cases hv : s.permit = .verifying
  · cases hp : s.permitCondition
    · cases hd : s.denialCondition <;> simp [hv]
    · simp [hv]
  · simp [hv]

theorem installRecovery_eq : s.installRecovery
    = { s with trans := s.installRecovery.trans, recoverySwap := s.installRecovery.recoverySwap } := by
  unfold State.installRecovery
  split
  · split <;> rfl
  · rfl

theorem decideRecovery_eq : s.decideRecovery
    = { s with trans := s.decideRecovery.trans, recoverySwap := s.decideRecovery.recoverySwap } := by
  unfold State.decideRecovery
  split
  · exact installRecovery_eq s
  · rfl

theorem decideRecovery_of_not_denied (h : s.permit ≠ .denied) : s.decideRecovery = s := by
  simp [State.decideRecovery, h]

/-- Settling leaves no decision due: a part still in VERIFYING meets neither condition of R153. -/
theorem settle_decided (h : s.settle.permit = .verifying) :
    s.settle.permitCondition = false ∧ s.settle.denialCondition = false := by
  have hp : s.grants.takeCheck.decidePermit.permit = .verifying :=
    (congrArg State.permit (decideRecovery_eq s.grants.takeCheck.decidePermit)).symm.trans h
  have hs : s.settle = s.grants.takeCheck.decidePermit.drive :=
    congrArg State.drive (decideRecovery_of_not_denied _ (by rw [hp]; decide))
  rw [hs]
  obtain ⟨he, hc⟩ | ⟨-, -, he⟩ | ⟨-, -, -, he⟩ := decidePermit_cases s.grants.takeCheck
  · rw [he] at hp ⊢; exact hc hp
  · rw [he] at hp; cases hp
  · rw [he] at hp; cases hp

/-- Settling ends a run only from VERIFYING; a run that ends has its deadline stopped, its duration recorded and RESULT_UNREAD set (R54). -/
theorem settle_run_end (h : s.permit = .verifying) (ht : s.settle.permit ≠ .verifying) :
    s.settle.deadline = none ∧ s.settle.alerts.resultUnread = true
      ∧ s.settle.report = s.report.map fun r => { r with duration := some s.runDuration } := by
  have hb : s.grants.takeCheck.permit = .verifying := by
    rw [takeCheck_eq, grants_eq]; exact h
  have hx (p : PermitState) (he : s.grants.takeCheck.decidePermit = s.grants.takeCheck.endRun p) :
      s.settle.deadline = none ∧ s.settle.alerts.resultUnread = true
        ∧ s.settle.report = s.report.map fun r => { r with duration := some s.runDuration } := by
    have hd : s.settle = ({ s.grants.takeCheck.endRun p with
        trans := (s.grants.takeCheck.endRun p).decideRecovery.trans
        recoverySwap := (s.grants.takeCheck.endRun p).decideRecovery.recoverySwap } : State).drive := by
      show s.grants.takeCheck.decidePermit.decideRecovery.drive = _
      rw [he]
      exact congrArg State.drive (decideRecovery_eq _)
    rw [hd]
    refine ⟨rfl, rfl, ?_⟩
    show s.grants.takeCheck.report.map (fun r => { r with duration := some s.grants.takeCheck.runDuration }) = _
    unfold State.runDuration
    rw [takeCheck_eq, grants_eq]
  obtain ⟨he, -⟩ | ⟨-, -, he⟩ | ⟨-, -, -, he⟩ := decidePermit_cases s.grants.takeCheck
  · refine absurd ?_ ht
    show s.grants.takeCheck.decidePermit.decideRecovery.drive.permit = _
    rw [he, decideRecovery_of_not_denied _ (by rw [hb]; decide)]
    exact hb
  · exact hx _ he
  · exact hx _ he

/-- The outputs agree with the records once they are driven, if the pulse has not ended on a line that a hold condition asserts. -/
theorem drive_agrees : s.drive.OutputsAgree := by
  have h : s.drive.holdCondition = s.holdCondition := rfl
  refine ⟨?_, ?_, rfl, ?_⟩
  · show (s.permit == .permitted) = decide (s.permit = .permitted)
    cases s.permit <;> rfl
  · rw [h]; rfl
  · show (s.permit != .unprovisioned) = decide (s.permit ≠ .unprovisioned)
    cases s.permit <;> rfl

/-- A line driven while it was released starts the pulse in full. -/
theorem drive_pulse (h : s.pins.ctrlHold = false) (hc : s.holdCondition = true) :
    s.drive.pulse = .running (1000 * s.cfg.holdPulse) := by
  simp [State.nextPulse, h, hc]

/-- A line already asserted leaves the pulse as it was. -/
theorem drive_pulse_of_asserted (h : s.pins.ctrlHold = true) : s.drive.pulse = s.pulse := by
  simp [State.nextPulse, h]

/-! ## Time -/

/-- What the connected lines of PASS-THROUGH do: the flash is sent the bytes, in that mode with select asserted, and nothing else changes. -/
theorem wire_cases (bs : List Byte) :
    (s.up.mode = .passThrough ∧ s.up.select = true ∧ s.wire bs = s.send bs)
      ∨ (¬ (s.up.mode = .passThrough ∧ s.up.select = true) ∧ s.wire bs = s) := by
  unfold State.wire
  by_cases h : s.up.mode = .passThrough ∧ s.up.select = true
  · exact .inl ⟨h.1, h.2, if_pos h⟩
  · exact .inr ⟨h, if_neg h⟩

/-- An attempt is in progress by the region's own state or by its pair's (R56 row 2). -/
theorem attemptInProgress_iff (i : Nat) :
    s.attemptInProgress i = true ↔
      (∃ st, s.rstate i = some st ∧ st ∈ [RState.queued, .header, .hashing, .signing])
        ∨ ∃ j p, s.pairOf i = some j ∧ s.pair j = some p ∧ p.state = .selecting := by
  have hst : ∀ st : RState, st.inProgress = true ↔ st ∈ [RState.queued, .header, .hashing, .signing] := by
    intro st; cases st <;> decide
  simp only [State.attemptInProgress, State.pairRecordOf, Bool.or_eq_true, Option.any_eq_true, Option.bind_eq_some_iff, hst,
    beq_iff_eq]
  refine or_congr Iff.rfl ⟨?_, ?_⟩
  · rintro ⟨p, ⟨j, h1, h2⟩, h3⟩
    exact ⟨j, p, h1, h2, h3⟩
  · rintro ⟨j, p, h1, h2, h3⟩
    exact ⟨p, ⟨j, h1, h2⟩, h3⟩

/-- No time, no change. -/
theorem elapse_zero : s.elapse 0 = s := by
  have hl : ∀ t : Option Nat, lapse 0 t = t := fun t => by cases t <;> rfl
  have hb : s.keys.burn.map (fun b => { b with remaining := b.remaining - 0 }) = s.keys.burn := by cases s.keys.burn <;> rfl
  have hp : s.pulse.lapse 0 = s.pulse := by cases s.pulse <;> rfl
  have hs : s.sigUnit.lapse 0 = s.sigUnit := by cases s.sigUnit <;> rfl
  have hv : s.prov.lapse 0 = s.prov := by cases s.prov <;> rfl
  simp only [State.elapse, hl, hb, hp, hs, hv, Nat.add_zero]

/-! ## The fields each of them leaves -/

@[simp] theorem State.settleMode_pending : s.settleMode.pending = s.pending := by rw [settleMode_eq]
@[simp] theorem State.settleMode_resetN : s.settleMode.resetN = s.resetN := by rw [settleMode_eq]
@[simp] theorem State.settleMode_resetCause : s.settleMode.resetCause = s.resetCause := by rw [settleMode_eq]
@[simp] theorem State.settleMode_straps : s.settleMode.straps = s.straps := by rw [settleMode_eq]
@[simp] theorem State.settleMode_load : s.settleMode.load = s.load := by rw [settleMode_eq]
@[simp] theorem State.settleMode_prov : s.settleMode.prov = s.prov := by rw [settleMode_eq]
@[simp] theorem State.settleMode_sinceReset : s.settleMode.sinceReset = s.sinceReset := by rw [settleMode_eq]
@[simp] theorem State.settleMode_runElapsed : s.settleMode.runElapsed = s.runElapsed := by rw [settleMode_eq]
@[simp] theorem State.settleMode_store : s.settleMode.store = s.store := by rw [settleMode_eq]
@[simp] theorem State.settleMode_cfg : s.settleMode.cfg = s.cfg := by rw [settleMode_eq]
@[simp] theorem State.settleMode_synth : s.settleMode.synth = s.synth := by rw [settleMode_eq]
@[simp] theorem State.settleMode_keys : s.settleMode.keys = s.keys := by rw [settleMode_eq]
@[simp] theorem State.settleMode_regions : s.settleMode.regions = s.regions := by rw [settleMode_eq]
@[simp] theorem State.settleMode_pairs : s.settleMode.pairs = s.pairs := by rw [settleMode_eq]
@[simp] theorem State.settleMode_runtime : s.settleMode.runtime = s.runtime := by rw [settleMode_eq]
@[simp] theorem State.settleMode_runNumber : s.settleMode.runNumber = s.runNumber := by rw [settleMode_eq]
@[simp] theorem State.settleMode_queue : s.settleMode.queue = s.queue := by rw [settleMode_eq]
@[simp] theorem State.settleMode_deadline : s.settleMode.deadline = s.deadline := by rw [settleMode_eq]
@[simp] theorem State.settleMode_trans : s.settleMode.trans = s.trans := by rw [settleMode_eq]
@[simp] theorem State.settleMode_contexts : s.settleMode.contexts = s.contexts := by rw [settleMode_eq]
@[simp] theorem State.settleMode_sigList : s.settleMode.sigList = s.sigList := by rw [settleMode_eq]
@[simp] theorem State.settleMode_sigUnit : s.settleMode.sigUnit = s.sigUnit := by rw [settleMode_eq]
@[simp] theorem State.settleMode_fp : s.settleMode.fp = s.fp := by rw [settleMode_eq]
@[simp] theorem State.settleMode_violation : s.settleMode.violation = s.violation := by rw [settleMode_eq]
@[simp] theorem State.settleMode_permit : s.settleMode.permit = s.permit := by rw [settleMode_eq]
@[simp] theorem State.settleMode_pulse : s.settleMode.pulse = s.pulse := by rw [settleMode_eq]
@[simp] theorem State.settleMode_recoverySwap : s.settleMode.recoverySwap = s.recoverySwap := by rw [settleMode_eq]
@[simp] theorem State.settleMode_report : s.settleMode.report = s.report := by rw [settleMode_eq]
@[simp] theorem State.settleMode_alerts : s.settleMode.alerts = s.alerts := by rw [settleMode_eq]
@[simp] theorem State.settleMode_pins : s.settleMode.pins = s.pins := by rw [settleMode_eq]
@[simp] theorem State.settleMode_response : s.settleMode.response = s.response := by rw [settleMode_eq]

@[simp] theorem State.arbitrate_pending : s.arbitrate.pending = s.pending := by rw [arbitrate_eq]
@[simp] theorem State.arbitrate_resetN : s.arbitrate.resetN = s.resetN := by rw [arbitrate_eq]
@[simp] theorem State.arbitrate_resetCause : s.arbitrate.resetCause = s.resetCause := by rw [arbitrate_eq]
@[simp] theorem State.arbitrate_straps : s.arbitrate.straps = s.straps := by rw [arbitrate_eq]
@[simp] theorem State.arbitrate_load : s.arbitrate.load = s.load := by rw [arbitrate_eq]
@[simp] theorem State.arbitrate_prov : s.arbitrate.prov = s.prov := by rw [arbitrate_eq]
@[simp] theorem State.arbitrate_sinceReset : s.arbitrate.sinceReset = s.sinceReset := by rw [arbitrate_eq]
@[simp] theorem State.arbitrate_runElapsed : s.arbitrate.runElapsed = s.runElapsed := by rw [arbitrate_eq]
@[simp] theorem State.arbitrate_store : s.arbitrate.store = s.store := by rw [arbitrate_eq]
@[simp] theorem State.arbitrate_cfg : s.arbitrate.cfg = s.cfg := by rw [arbitrate_eq]
@[simp] theorem State.arbitrate_synth : s.arbitrate.synth = s.synth := by rw [arbitrate_eq]
@[simp] theorem State.arbitrate_keys : s.arbitrate.keys = s.keys := by rw [arbitrate_eq]
@[simp] theorem State.arbitrate_regions : s.arbitrate.regions = s.regions := by rw [arbitrate_eq]
@[simp] theorem State.arbitrate_pairs : s.arbitrate.pairs = s.pairs := by rw [arbitrate_eq]
@[simp] theorem State.arbitrate_runtime : s.arbitrate.runtime = s.runtime := by rw [arbitrate_eq]
@[simp] theorem State.arbitrate_runNumber : s.arbitrate.runNumber = s.runNumber := by rw [arbitrate_eq]
@[simp] theorem State.arbitrate_queue : s.arbitrate.queue = s.queue := by rw [arbitrate_eq]
@[simp] theorem State.arbitrate_deadline : s.arbitrate.deadline = s.deadline := by rw [arbitrate_eq]
@[simp] theorem State.arbitrate_trans : s.arbitrate.trans = s.trans := by rw [arbitrate_eq]
@[simp] theorem State.arbitrate_contexts : s.arbitrate.contexts = s.contexts := by rw [arbitrate_eq]
@[simp] theorem State.arbitrate_sigList : s.arbitrate.sigList = s.sigList := by rw [arbitrate_eq]
@[simp] theorem State.arbitrate_sigUnit : s.arbitrate.sigUnit = s.sigUnit := by rw [arbitrate_eq]
@[simp] theorem State.arbitrate_up : s.arbitrate.up = s.up := by rw [arbitrate_eq]
@[simp] theorem State.arbitrate_violation : s.arbitrate.violation = s.violation := by rw [arbitrate_eq]
@[simp] theorem State.arbitrate_permit : s.arbitrate.permit = s.permit := by rw [arbitrate_eq]
@[simp] theorem State.arbitrate_pulse : s.arbitrate.pulse = s.pulse := by rw [arbitrate_eq]
@[simp] theorem State.arbitrate_recoverySwap : s.arbitrate.recoverySwap = s.recoverySwap := by rw [arbitrate_eq]
@[simp] theorem State.arbitrate_report : s.arbitrate.report = s.report := by rw [arbitrate_eq]
@[simp] theorem State.arbitrate_alerts : s.arbitrate.alerts = s.alerts := by rw [arbitrate_eq]
@[simp] theorem State.arbitrate_pins : s.arbitrate.pins = s.pins := by rw [arbitrate_eq]
@[simp] theorem State.arbitrate_response : s.arbitrate.response = s.response := by rw [arbitrate_eq]

@[simp] theorem State.grants_pending : s.grants.pending = s.pending := by rw [grants_eq]
@[simp] theorem State.grants_resetN : s.grants.resetN = s.resetN := by rw [grants_eq]
@[simp] theorem State.grants_resetCause : s.grants.resetCause = s.resetCause := by rw [grants_eq]
@[simp] theorem State.grants_straps : s.grants.straps = s.straps := by rw [grants_eq]
@[simp] theorem State.grants_load : s.grants.load = s.load := by rw [grants_eq]
@[simp] theorem State.grants_prov : s.grants.prov = s.prov := by rw [grants_eq]
@[simp] theorem State.grants_sinceReset : s.grants.sinceReset = s.sinceReset := by rw [grants_eq]
@[simp] theorem State.grants_runElapsed : s.grants.runElapsed = s.runElapsed := by rw [grants_eq]
@[simp] theorem State.grants_store : s.grants.store = s.store := by rw [grants_eq]
@[simp] theorem State.grants_cfg : s.grants.cfg = s.cfg := by rw [grants_eq]
@[simp] theorem State.grants_synth : s.grants.synth = s.synth := by rw [grants_eq]
@[simp] theorem State.grants_keys : s.grants.keys = s.keys := by rw [grants_eq]
@[simp] theorem State.grants_regions : s.grants.regions = s.regions := by rw [grants_eq]
@[simp] theorem State.grants_pairs : s.grants.pairs = s.pairs := by rw [grants_eq]
@[simp] theorem State.grants_runNumber : s.grants.runNumber = s.runNumber := by rw [grants_eq]
@[simp] theorem State.grants_deadline : s.grants.deadline = s.deadline := by rw [grants_eq]
@[simp] theorem State.grants_trans : s.grants.trans = s.trans := by rw [grants_eq]
@[simp] theorem State.grants_sigList : s.grants.sigList = s.sigList := by rw [grants_eq]
@[simp] theorem State.grants_sigUnit : s.grants.sigUnit = s.sigUnit := by rw [grants_eq]
@[simp] theorem State.grants_up : s.grants.up = s.up := by rw [grants_eq]
@[simp] theorem State.grants_fp : s.grants.fp = s.fp := by rw [grants_eq]
@[simp] theorem State.grants_violation : s.grants.violation = s.violation := by rw [grants_eq]
@[simp] theorem State.grants_permit : s.grants.permit = s.permit := by rw [grants_eq]
@[simp] theorem State.grants_pulse : s.grants.pulse = s.pulse := by rw [grants_eq]
@[simp] theorem State.grants_recoverySwap : s.grants.recoverySwap = s.recoverySwap := by rw [grants_eq]
@[simp] theorem State.grants_report : s.grants.report = s.report := by rw [grants_eq]
@[simp] theorem State.grants_alerts : s.grants.alerts = s.alerts := by rw [grants_eq]
@[simp] theorem State.grants_pins : s.grants.pins = s.pins := by rw [grants_eq]
@[simp] theorem State.grants_response : s.grants.response = s.response := by rw [grants_eq]

@[simp] theorem State.takeCheck_pending : s.takeCheck.pending = s.pending := by rw [takeCheck_eq]
@[simp] theorem State.takeCheck_resetN : s.takeCheck.resetN = s.resetN := by rw [takeCheck_eq]
@[simp] theorem State.takeCheck_resetCause : s.takeCheck.resetCause = s.resetCause := by rw [takeCheck_eq]
@[simp] theorem State.takeCheck_straps : s.takeCheck.straps = s.straps := by rw [takeCheck_eq]
@[simp] theorem State.takeCheck_load : s.takeCheck.load = s.load := by rw [takeCheck_eq]
@[simp] theorem State.takeCheck_prov : s.takeCheck.prov = s.prov := by rw [takeCheck_eq]
@[simp] theorem State.takeCheck_sinceReset : s.takeCheck.sinceReset = s.sinceReset := by rw [takeCheck_eq]
@[simp] theorem State.takeCheck_runElapsed : s.takeCheck.runElapsed = s.runElapsed := by rw [takeCheck_eq]
@[simp] theorem State.takeCheck_store : s.takeCheck.store = s.store := by rw [takeCheck_eq]
@[simp] theorem State.takeCheck_cfg : s.takeCheck.cfg = s.cfg := by rw [takeCheck_eq]
@[simp] theorem State.takeCheck_synth : s.takeCheck.synth = s.synth := by rw [takeCheck_eq]
@[simp] theorem State.takeCheck_keys : s.takeCheck.keys = s.keys := by rw [takeCheck_eq]
@[simp] theorem State.takeCheck_regions : s.takeCheck.regions = s.regions := by rw [takeCheck_eq]
@[simp] theorem State.takeCheck_pairs : s.takeCheck.pairs = s.pairs := by rw [takeCheck_eq]
@[simp] theorem State.takeCheck_runtime : s.takeCheck.runtime = s.runtime := by rw [takeCheck_eq]
@[simp] theorem State.takeCheck_runNumber : s.takeCheck.runNumber = s.runNumber := by rw [takeCheck_eq]
@[simp] theorem State.takeCheck_queue : s.takeCheck.queue = s.queue := by rw [takeCheck_eq]
@[simp] theorem State.takeCheck_deadline : s.takeCheck.deadline = s.deadline := by rw [takeCheck_eq]
@[simp] theorem State.takeCheck_trans : s.takeCheck.trans = s.trans := by rw [takeCheck_eq]
@[simp] theorem State.takeCheck_contexts : s.takeCheck.contexts = s.contexts := by rw [takeCheck_eq]
@[simp] theorem State.takeCheck_up : s.takeCheck.up = s.up := by rw [takeCheck_eq]
@[simp] theorem State.takeCheck_fp : s.takeCheck.fp = s.fp := by rw [takeCheck_eq]
@[simp] theorem State.takeCheck_violation : s.takeCheck.violation = s.violation := by rw [takeCheck_eq]
@[simp] theorem State.takeCheck_permit : s.takeCheck.permit = s.permit := by rw [takeCheck_eq]
@[simp] theorem State.takeCheck_pulse : s.takeCheck.pulse = s.pulse := by rw [takeCheck_eq]
@[simp] theorem State.takeCheck_recoverySwap : s.takeCheck.recoverySwap = s.recoverySwap := by rw [takeCheck_eq]
@[simp] theorem State.takeCheck_report : s.takeCheck.report = s.report := by rw [takeCheck_eq]
@[simp] theorem State.takeCheck_alerts : s.takeCheck.alerts = s.alerts := by rw [takeCheck_eq]
@[simp] theorem State.takeCheck_pins : s.takeCheck.pins = s.pins := by rw [takeCheck_eq]
@[simp] theorem State.takeCheck_response : s.takeCheck.response = s.response := by rw [takeCheck_eq]

@[simp] theorem State.decidePermit_pending : s.decidePermit.pending = s.pending := by rw [decidePermit_eq]
@[simp] theorem State.decidePermit_resetN : s.decidePermit.resetN = s.resetN := by rw [decidePermit_eq]
@[simp] theorem State.decidePermit_resetCause : s.decidePermit.resetCause = s.resetCause := by rw [decidePermit_eq]
@[simp] theorem State.decidePermit_straps : s.decidePermit.straps = s.straps := by rw [decidePermit_eq]
@[simp] theorem State.decidePermit_load : s.decidePermit.load = s.load := by rw [decidePermit_eq]
@[simp] theorem State.decidePermit_prov : s.decidePermit.prov = s.prov := by rw [decidePermit_eq]
@[simp] theorem State.decidePermit_sinceReset : s.decidePermit.sinceReset = s.sinceReset := by rw [decidePermit_eq]
@[simp] theorem State.decidePermit_runElapsed : s.decidePermit.runElapsed = s.runElapsed := by rw [decidePermit_eq]
@[simp] theorem State.decidePermit_store : s.decidePermit.store = s.store := by rw [decidePermit_eq]
@[simp] theorem State.decidePermit_cfg : s.decidePermit.cfg = s.cfg := by rw [decidePermit_eq]
@[simp] theorem State.decidePermit_synth : s.decidePermit.synth = s.synth := by rw [decidePermit_eq]
@[simp] theorem State.decidePermit_keys : s.decidePermit.keys = s.keys := by rw [decidePermit_eq]
@[simp] theorem State.decidePermit_regions : s.decidePermit.regions = s.regions := by rw [decidePermit_eq]
@[simp] theorem State.decidePermit_pairs : s.decidePermit.pairs = s.pairs := by rw [decidePermit_eq]
@[simp] theorem State.decidePermit_runtime : s.decidePermit.runtime = s.runtime := by rw [decidePermit_eq]
@[simp] theorem State.decidePermit_runNumber : s.decidePermit.runNumber = s.runNumber := by rw [decidePermit_eq]
@[simp] theorem State.decidePermit_queue : s.decidePermit.queue = s.queue := by rw [decidePermit_eq]
@[simp] theorem State.decidePermit_trans : s.decidePermit.trans = s.trans := by rw [decidePermit_eq]
@[simp] theorem State.decidePermit_contexts : s.decidePermit.contexts = s.contexts := by rw [decidePermit_eq]
@[simp] theorem State.decidePermit_sigList : s.decidePermit.sigList = s.sigList := by rw [decidePermit_eq]
@[simp] theorem State.decidePermit_sigUnit : s.decidePermit.sigUnit = s.sigUnit := by rw [decidePermit_eq]
@[simp] theorem State.decidePermit_up : s.decidePermit.up = s.up := by rw [decidePermit_eq]
@[simp] theorem State.decidePermit_fp : s.decidePermit.fp = s.fp := by rw [decidePermit_eq]
@[simp] theorem State.decidePermit_violation : s.decidePermit.violation = s.violation := by rw [decidePermit_eq]
@[simp] theorem State.decidePermit_pulse : s.decidePermit.pulse = s.pulse := by rw [decidePermit_eq]
@[simp] theorem State.decidePermit_recoverySwap : s.decidePermit.recoverySwap = s.recoverySwap := by rw [decidePermit_eq]
@[simp] theorem State.decidePermit_pins : s.decidePermit.pins = s.pins := by rw [decidePermit_eq]
@[simp] theorem State.decidePermit_response : s.decidePermit.response = s.response := by rw [decidePermit_eq]

@[simp] theorem State.decideRecovery_pending : s.decideRecovery.pending = s.pending := by rw [decideRecovery_eq]
@[simp] theorem State.decideRecovery_resetN : s.decideRecovery.resetN = s.resetN := by rw [decideRecovery_eq]
@[simp] theorem State.decideRecovery_resetCause : s.decideRecovery.resetCause = s.resetCause := by rw [decideRecovery_eq]
@[simp] theorem State.decideRecovery_straps : s.decideRecovery.straps = s.straps := by rw [decideRecovery_eq]
@[simp] theorem State.decideRecovery_load : s.decideRecovery.load = s.load := by rw [decideRecovery_eq]
@[simp] theorem State.decideRecovery_prov : s.decideRecovery.prov = s.prov := by rw [decideRecovery_eq]
@[simp] theorem State.decideRecovery_sinceReset : s.decideRecovery.sinceReset = s.sinceReset := by rw [decideRecovery_eq]
@[simp] theorem State.decideRecovery_runElapsed : s.decideRecovery.runElapsed = s.runElapsed := by rw [decideRecovery_eq]
@[simp] theorem State.decideRecovery_store : s.decideRecovery.store = s.store := by rw [decideRecovery_eq]
@[simp] theorem State.decideRecovery_cfg : s.decideRecovery.cfg = s.cfg := by rw [decideRecovery_eq]
@[simp] theorem State.decideRecovery_synth : s.decideRecovery.synth = s.synth := by rw [decideRecovery_eq]
@[simp] theorem State.decideRecovery_keys : s.decideRecovery.keys = s.keys := by rw [decideRecovery_eq]
@[simp] theorem State.decideRecovery_regions : s.decideRecovery.regions = s.regions := by rw [decideRecovery_eq]
@[simp] theorem State.decideRecovery_pairs : s.decideRecovery.pairs = s.pairs := by rw [decideRecovery_eq]
@[simp] theorem State.decideRecovery_runtime : s.decideRecovery.runtime = s.runtime := by rw [decideRecovery_eq]
@[simp] theorem State.decideRecovery_runNumber : s.decideRecovery.runNumber = s.runNumber := by rw [decideRecovery_eq]
@[simp] theorem State.decideRecovery_queue : s.decideRecovery.queue = s.queue := by rw [decideRecovery_eq]
@[simp] theorem State.decideRecovery_deadline : s.decideRecovery.deadline = s.deadline := by rw [decideRecovery_eq]
@[simp] theorem State.decideRecovery_contexts : s.decideRecovery.contexts = s.contexts := by rw [decideRecovery_eq]
@[simp] theorem State.decideRecovery_sigList : s.decideRecovery.sigList = s.sigList := by rw [decideRecovery_eq]
@[simp] theorem State.decideRecovery_sigUnit : s.decideRecovery.sigUnit = s.sigUnit := by rw [decideRecovery_eq]
@[simp] theorem State.decideRecovery_up : s.decideRecovery.up = s.up := by rw [decideRecovery_eq]
@[simp] theorem State.decideRecovery_fp : s.decideRecovery.fp = s.fp := by rw [decideRecovery_eq]
@[simp] theorem State.decideRecovery_violation : s.decideRecovery.violation = s.violation := by rw [decideRecovery_eq]
@[simp] theorem State.decideRecovery_permit : s.decideRecovery.permit = s.permit := by rw [decideRecovery_eq]
@[simp] theorem State.decideRecovery_pulse : s.decideRecovery.pulse = s.pulse := by rw [decideRecovery_eq]
@[simp] theorem State.decideRecovery_report : s.decideRecovery.report = s.report := by rw [decideRecovery_eq]
@[simp] theorem State.decideRecovery_alerts : s.decideRecovery.alerts = s.alerts := by rw [decideRecovery_eq]
@[simp] theorem State.decideRecovery_pins : s.decideRecovery.pins = s.pins := by rw [decideRecovery_eq]
@[simp] theorem State.decideRecovery_response : s.decideRecovery.response = s.response := by rw [decideRecovery_eq]

/-! ## What closes an event of the run logic changes the verifier's records, the permit controller's and the outputs -/

@[simp] theorem State.settle_pending : s.settle.pending = s.pending := by simp [State.settle]
@[simp] theorem State.settle_resetN : s.settle.resetN = s.resetN := by simp [State.settle]
@[simp] theorem State.settle_resetCause : s.settle.resetCause = s.resetCause := by simp [State.settle]
@[simp] theorem State.settle_straps : s.settle.straps = s.straps := by simp [State.settle]
@[simp] theorem State.settle_load : s.settle.load = s.load := by simp [State.settle]
@[simp] theorem State.settle_prov : s.settle.prov = s.prov := by simp [State.settle]
@[simp] theorem State.settle_sinceReset : s.settle.sinceReset = s.sinceReset := by simp [State.settle]
@[simp] theorem State.settle_runElapsed : s.settle.runElapsed = s.runElapsed := by simp [State.settle]
@[simp] theorem State.settle_store : s.settle.store = s.store := by simp [State.settle]
@[simp] theorem State.settle_cfg : s.settle.cfg = s.cfg := by simp [State.settle]
@[simp] theorem State.settle_synth : s.settle.synth = s.synth := by simp [State.settle]
@[simp] theorem State.settle_keys : s.settle.keys = s.keys := by simp [State.settle]
@[simp] theorem State.settle_regions : s.settle.regions = s.regions := by simp [State.settle]
@[simp] theorem State.settle_pairs : s.settle.pairs = s.pairs := by simp [State.settle]
@[simp] theorem State.settle_runNumber : s.settle.runNumber = s.runNumber := by simp [State.settle]
@[simp] theorem State.settle_up : s.settle.up = s.up := by simp [State.settle]
@[simp] theorem State.settle_fp : s.settle.fp = s.fp := by simp [State.settle]
@[simp] theorem State.settle_violation : s.settle.violation = s.violation := by simp [State.settle]
@[simp] theorem State.settle_response : s.settle.response = s.response := by simp [State.settle]

end Sys2Proof.Machine
end

