-- ==== Sys2Proof/Laws/Store.lean ====
section
/-! SUPPORT. The configuration store: a burn burns its cell and no other, and never unburns one; the next cell of a row and of a
provisioning. And the running digest: absorbing in pieces. -/

namespace Sys2Proof.Machine

theorem Store.Keeps.refl (st : Store) : st.Keeps st := fun _ h => h

theorem Store.Keeps.trans {a b c : Store} (h : a.Keeps b) (h' : b.Keeps c) : a.Keeps c := fun x hx => h' x (h x hx)

/-- The cut cell is no cell of its own. -/
@[simp] theorem burned_cut (st : Store) (c : Option StoreCell) (x : StoreCell) : ({ st with cut := c } : Store).burned x = st.burned x := by
  cases x <;> rfl

/-- A cell that exists: a configuration cell within the bytes of the store. -/
def Store.hasCell (st : Store) : StoreCell → Bool
  | .config i _ => decide (i < st.config.length)
  | .crc _ | .active _ | .revoked _ | .floor _ _ | .sealMark => true

/-- After a burn, burned are the cell burned and those burned before. -/
theorem burned_burn (st : Store) (c x : StoreCell) :
    (st.burn c).burned x = (st.burned x || (decide (x = c) && st.hasCell c)) := by
  cases c with
  | config i b =>
    cases x with
    | config j d =>
      simp only [Store.burn, Store.burned, Store.hasCell, List.getD_eq_getElem?_getD, List.getElem?_modify]
      by_cases hij : i = j
      · subst hij
        by_cases hl : i < st.config.length
        · by_cases hbd : d = b
          · subst hbd; simp [hl]
          · have : ¬ (d : Nat) = b := fun h => hbd (Fin.ext h)
            simp [hl, hbd]
            omega
        · simp [hl]
      · simp [hij, Ne.symm hij]
    | _ => simp [Store.burn, Store.burned]
  | crc b =>
    cases x with
    | crc d =>
      by_cases hbd : d = b
      · subst hbd; simp [Store.burn, Store.burned, Store.hasCell]
      · have : ¬ (d : Nat) = b := fun h => hbd (Fin.ext h)
        simp [Store.burn, Store.burned, Store.hasCell, hbd]
        omega
    | _ => simp [Store.burn, Store.burned]
  | active s =>
    cases x with
    | active d =>
      by_cases hbd : d = s
      · subst hbd; simp [Store.burn, Store.burned, Store.hasCell]
      · have : ¬ (s : Nat) = d := fun h => hbd (Fin.ext h.symm)
        simp [Store.burn, Store.burned, Store.hasCell, hbd, this]
    | _ => simp [Store.burn, Store.burned]
  | revoked s =>
    cases x with
    | revoked d =>
      by_cases hbd : d = s
      · subst hbd; simp [Store.burn, Store.burned, Store.hasCell]
      · have : ¬ (s : Nat) = d := fun h => hbd (Fin.ext h.symm)
        simp [Store.burn, Store.burned, Store.hasCell, hbd, this]
    | _ => simp [Store.burn, Store.burned]
  | floor k p =>
    cases x with
    | floor k' p' =>
      by_cases hk : k' = k
      · subst hk
        by_cases hp : p' = p
        · subst hp; simp [Store.burn, Store.burned, Store.hasCell]
        · have : ¬ (p' : Nat) = p := fun h => hp (Fin.ext h)
          simp [Store.burn, Store.burned, Store.hasCell, hp]
          omega
      · have : ¬ (k : Nat) = k' := fun h => hk (Fin.ext h.symm)
        simp [Store.burn, Store.burned, Store.hasCell, hk, this]
    | _ => simp [Store.burn, Store.burned]
  | sealMark => cases x <;> simp [Store.burn, Store.burned, Store.hasCell]

/-- A burn keeps every burned cell. -/
theorem keeps_burn (st : Store) (c : StoreCell) : st.Keeps (st.burn c) := by
  intro x hx
  rw [burned_burn, hx, Bool.true_or]

/-- What the next cell of a row is: the lowest unburned one, or none with the row full. -/
theorem rowNext_cases (row : BitVec 63) :
    (rowNext row = none ∧ ∀ p : Fin 63, row.getLsbD p = true)
      ∨ ∃ p : Fin 63, rowNext row = some p ∧ row.getLsbD p = false ∧ ∀ q : Fin 63, q < p → row.getLsbD q = true := by
  unfold rowNext
  cases h : (List.finRange 63).find? (fun i : Fin 63 => !row.getLsbD i.1) with
  | none =>
    refine .inl ⟨rfl, fun p => ?_⟩
    have := List.find?_eq_none.mp h p (List.mem_finRange p)
    simpa using this
  | some p =>
    refine .inr ⟨p, rfl, by simpa using List.find?_some h, fun q hq => ?_⟩
    obtain ⟨-, i, hi, he, hall⟩ := List.find?_eq_some_iff_getElem.mp h
    have hp : (p : Nat) = i := by rw [← he]; simp
    have := hall q.1 (by rw [← hp]; exact hq)
    simpa using this

/-- Absorbing in pieces is absorbing whole. -/
theorem absorbAll_append (d : Digest) (xs ys : List Byte) : d.absorbAll (xs ++ ys) = (d.absorbAll xs).absorbAll ys := by
  simp [Digest.absorbAll, List.foldl_append]

theorem absorbAll_snoc (d : Digest) (xs : List Byte) (b : Byte) : d.absorbAll (xs ++ [b]) = (d.absorbAll xs).absorb b := by
  simp [Digest.absorbAll, List.foldl_append]

/-- The count of a running digest is the number of bytes absorbed. -/
theorem absorbAll_count (xs : List Byte) (d : Digest) : (d.absorbAll xs).count = d.count + xs.length := by
  induction xs generalizing d with
  | nil => rfl
  | cons x xs ih =>
    show ((d.absorb x).absorbAll xs).count = _
    rw [ih]
    unfold Digest.absorb
    split <;> simp <;> omega

end Sys2Proof.Machine
end

