-- ==== Sys2Proof/Tests/Slice0.lean ====
section
/-! SUPPORT. Tests: the WellFormed smoke test, worked examples of the spec and of the public standards it names, and for each statement
with hypotheses a witness, named witness_<statement>, that meets them together. -/

namespace Sys2Proof.Tests

set_option Elab.async false

open Sys2Proof Sys2Proof.Machine

/-! ## WellFormed smoke test, decoder -/

theorem test_short_image_is_ill_formed : (Instr.bootstrapReadComplete [0x00]).wellFormed = false := by decide
theorem test_known_code_is_ill_formed : (Instr.unknownRequest 0x04).wellFormed = false := by decide
theorem test_unknown_code_is_well_formed : (Instr.unknownRequest 0x08).wellFormed = true := by decide
theorem test_no_word_spells_a_command : decodeTableWord 8 0x13 = none := by decide

/-! ## Public standards: FIPS 180-4's "abc", the check value of the CRC, RFC 6979's P-256 vector for "sample" -/

theorem test_sha256_abc :
    sha256 [0x61, 0x62, 0x63] = 0xba7816bf8f01cfea414140de5dae2223b00361a396177a9cb410ff61f20015ad := by decide +kernel

theorem test_crc32_check_value : crc32 [0x31, 0x32, 0x33, 0x34, 0x35, 0x36, 0x37, 0x38, 0x39] = 0xCBF43926 := by decide +kernel

/-- The public key, the message digest and the signature of RFC 6979, A.2.5 (SHA-256, message "sample"). -/
def rfcKey : List Byte :=
  beBytes 32 0x60FED4BA255A9D31C961EB74C6356D68C049B8923B61FA6CE669622E60F29FB6
    ++ beBytes 32 0x7903FE1008B8BC99A41AE9E95628BC64F2F1B20C2D7E9F5177A3C294D4462299
def rfcDigest : BitVec 256 := 0xAF2BDBE1AA9B6EC1E2ADE1D694F41FC71A831D0268E9891562113D8A62ADD1BF
def rfcSignature : List Byte :=
  beBytes 32 0xEFD48B2AACB6A8FD1140DD9CD45E81D69D2C877B56AAF991C34D0EA84EAF3716
    ++ beBytes 32 0xF7CB1C942D657C41D436C7A1B6E29F65F3E900DBB9AFF4064DC4AB2F843ACDA8

theorem test_rfc6979_signature_passes : checkSignature rfcKey rfcDigest rfcSignature = true := by decide +kernel
theorem test_rfc6979_other_digest_fails : checkSignature rfcKey (rfcDigest ^^^ 1) rfcSignature = false := by decide +kernel

/-! ## 8.6.1 and R75: clock settings and check times -/

theorem test_legal_settings :
    clockLegal 25 5 80 4 = true ∧ clockLegal 27 3 30 3 = true ∧ clockLegal 24 2 40 4 = true ∧ clockLegal 8 2 50 2 = true := by decide
theorem test_illegal_settings :
    clockLegal 25 10 80 4 = false ∧ clockLegal 24 2 40 3 = false ∧ clockLegal 40 4 50 4 = false := by decide
theorem test_check_times :
    checkTimeOf 120 1 = 10000 ∧ checkTimeOf 90 1 = 13334 ∧ checkTimeOf 70 1 = 17143 ∧ checkTimeOf 25 1 = 48000
      ∧ checkTimeOf 8 1 = 150000 := by decide

/-! ## 1.3.1, 1.4.1, 1.5.1: the stream and write arithmetic on a 32 MiB flash -/

/-- The first list of 1.3.1: main firmware A and B exchanged. -/
def mainSwap : List Window := installSwap 0x100000 0x900000 0x800000 .pair (some 0) []

/-- The second list of 1.3.1: the recovery swap beside it. -/
def mainAndRecovery : List Window := installSwap 0 0x1F00000 0x40000 .recovery none mainSwap

theorem test_lists_of_1_3_1 :
    mainAndRecovery.map (fun w => (w.from_, w.to_))
      = [(0, 0x1F00000), (0x100000, 0x900000), (0x900000, 0x100000), (0x1F00000, 0)] := by decide
theorem test_stream_that_leaves_the_home_window :
    wanted mainSwap 0x2000000 0x8FFFF0 15 = 0x10FFFFF ∧ delivered mainSwap 0x2000000 0x8FFFF0 15 = 0x10FFFFF
      ∧ wanted mainSwap 0x2000000 0x8FFFF0 16 = 0x100000 ∧ delivered mainSwap 0x2000000 0x8FFFF0 16 = 0x1100000
      ∧ outOfField 3 (translate mainSwap 0x8FFFF0) = true := by decide
theorem test_stream_across_the_flash_end :
    wanted [] 0x2000000 0x1FFFFFE 2 = 0 ∧ delivered [] 0x2000000 0x1FFFFFE 2 = 0
      ∧ wanted mainAndRecovery 0x2000000 0x1FFFFFE 2 = 0x1F00000 ∧ delivered mainAndRecovery 0x2000000 0x1FFFFFE 2 = 0 := by decide
theorem test_affected_ranges_of_1_5_1 :
    affectedRange .eraseBlock (translate mainSwap 0x123456) 0x2000000 = some (0x920000, 0x10000)
      ∧ affectedRange .program (translate mainSwap 0x9200F0) 0x2000000 = some (0x120000, 256)
      ∧ affectedRange .eraseSector (translate mainSwap 0x1FFF000) 0x2000000 = some (0x1FFF000, 4096) := by decide

/-! ## 2.6.2: the first failing header check decides (region 4: kind 2, 512 KiB; slot 1 ACTIVE for kind 2, slot 3 EMPTY, floor 1) -/

def exampleSlots : Vector KeySlot 4 :=
  #v[⟨.active, 0x03, []⟩, ⟨.active, 0x04, []⟩, ⟨.revoked, 0x04, []⟩, ⟨.empty, 0, []⟩]
def exampleFloors : Vector Nat 8 := #v[2, 3, 1, 0, 0, 0, 0, 0]
def engine : Region := ⟨0x1100000, 0x80000, .fill, .locked, some .required, some 2, some 1, none, none⟩
def exampleManifest (format kind slot epoch : Byte) (len : Nat) : List Byte :=
  markerBytes ++ [format, kind, slot, epoch, 9, 0, 0, 0] ++ leBytes 4 len ++ List.replicate 64 0x55

theorem test_first_failures_of_2_6_2 :
    judgeManifest exampleSlots exampleFloors engine (exampleManifest 2 9 3 0 0) = .fail .format
      ∧ judgeManifest exampleSlots exampleFloors engine (exampleManifest 1 9 3 0 0) = .fail .kind
      ∧ judgeManifest exampleSlots exampleFloors engine (exampleManifest 1 2 3 0 0) = .fail .key
      ∧ judgeManifest exampleSlots exampleFloors engine (exampleManifest 1 2 1 0 0) = .fail .epoch
      ∧ judgeManifest exampleSlots exampleFloors engine (exampleManifest 1 2 1 1 0) = .fail .length
      ∧ judgeManifest exampleSlots exampleFloors engine (exampleManifest 1 2 1 64 0x62000) = .fail .format
      ∧ judgeManifest exampleSlots exampleFloors engine (exampleManifest 1 2 1 1 0x62000) = .pass ⟨0x62000, 1, 9, 1⟩ := by decide

/-! ## A small part at work: 1 MiB of flash; region 0 REQUIRED (HOLD, LOCKED), 1 and 2 an OBSERVE pair, 3 OPTIONAL (FILL, FREE), 4 OPEN -/

def boot : Region := ⟨0, 0x2000, .hold, .locked, some .required, some 0, some 3, none, none⟩
def slotA : Region := ⟨0x10000, 0x10000, .observe, .slot, some .required, some 1, some 2, some 2, some true⟩
def slotB : Region := ⟨0x20000, 0x10000, .observe, .slot, some .required, some 1, some 2, some 1, some false⟩
def fonts : Region := ⟨0x30000, 0x2000, .fill, .free, some .optional, some 2, some 0, none, none⟩
def settings : Region := ⟨0x40000, 0x2000, .opened, .free, none, none, none, none, none⟩
def table5 : List Region := [boot, slotA, slotB, fonts, settings]

def classTable : List ClassEntry :=
  (((((((((List.replicate 256 ClassEntry.unlisted).set 0x5A ⟨.service, 0, 1, 0, 1⟩).set 0x13 ⟨.read, 4, 1, 0, 1⟩).set 0x05
    ⟨.statusRead, 0, 1, 0, 1⟩).set 0x04 ⟨.writeDisable, 0, 1, 0, 1⟩).set 0xC7 ⟨.eraseChip, 0, 1, 0, 1⟩).set 0xB9
    ⟨.sleep, 0, 1, 0, 1⟩).set 0x01 ⟨.statusWrite, 0, 1, 0, 1⟩).set 0x06 ⟨.writeEnable, 0, 1, 0, 1⟩)

def smallCfg : Cfg :=
  { Cfg.empty with
    geometry := 20, table := classTable, verifierRead := 0x13, statusRead := 0x05, writeDisable := 0x04, wake := 0xAB, sleep := 0xB9
    latchBit := 1, serviceByte := 0x5A, tag := 0xC3, deadline := 10, holdPulse := 20, wakeTime := 50, pollInterval := 2 }

/-- A record in a state, with the fields an image of 300 payload bytes leaves. -/
def passed (state : RState) (progress : Nat) (context : Option (Fin 4)) : Runtime :=
  ⟨state, if state = .rejected then some .signature else none, some ⟨300, 5, 7, 1⟩, progress, context, false, 1⟩

/-- The part in a running permit state, waiting for a transaction, its runtime records given. -/
def live (permit : PermitState) (runtime : List (Option Runtime)) : State :=
  ({ State.reset with
      load := .none, permit, cfg := smallCfg, regions := table5, pairs := pairsOf table5, runtime, runNumber := 1
      keys := ⟨exampleSlots, exampleFloors, none⟩, pulse := .stopped
      up := ⟨false, .relaying, none, none⟩
      fp := { State.reset.fp with shadow := ⟨.unknown, .idle, .awake, false, false⟩ }
      report := some ⟨1, .power, none, ⟨0, 0, 0, 0⟩⟩ } : State).drive

/-- Every image VERIFIED but the unselected slot, the pair SELECTED at home. -/
def allPassed (permit : PermitState) : State :=
  (live permit [some (passed .verified 300 none), some (passed .verified 300 none), some (passed .unchecked 0 none),
    some (passed .verified 300 none), none]).modPair 0 fun p => { p with selection := .home, state := .selected, order := [.home] }

/-- A transaction in progress: its class table entry, its phase, its handling. -/
def inside (s : State) (e : ClassEntry) (phase : TxPhase) (handling : Handling) (address : BitVec 32) (k : Nat) : State :=
  { s with
    up := { s.up with
      select := true
      tx := some { Tx.opened with
        entry := some e, phase, handling, address := some address, received := e.addrBytes, captured := some s.trans, k } }
    fp := { s.fp with holder := .relay, select := true } }

/-- The entries of the small class table, with the state in `inside` of one of them. -/
def read4 : ClassEntry := ⟨.read, 4, 1, 0, 1⟩
def program4 : ClassEntry := ⟨.program, 4, 1, 0, 1⟩
def ofClass (c : TxClass) : ClassEntry := ⟨c, 0, 1, 0, 1⟩

/-- The record of the transaction in progress. -/
def txOf (s : State) : Tx := s.up.tx.getD Tx.opened

/-! ## Witnesses: the step, the resets, the load -/

theorem witness_AStepRunsTheFrontCommand : ({ State.reset with pending := [.peek] } : State).pending = .peek :: [] := rfl
theorem witness_AnIdleStepLetsAMicrosecondPass : State.reset.pending = [] := rfl

/-- A state that is idle in every clause of the statement, and one with a transaction that no request can interrupt. -/
theorem witness_AnImpossibleEventChangesNothing :
    (State.reset.prov ≠ .reading ∧ State.reset.sigUnit = .idle ∧ State.reset.deadline = none ∧ State.reset.fp.wakeWait = none
      ∧ State.reset.fp.pollWait = none ∧ State.reset.fp.holder = .free ∧ State.reset.keys.burn = none ∧ State.reset.up.tx = none
      ∧ State.reset.up.mode ≠ .relaying ∧ State.reset.up.select = false) := by decide
theorem witness_AnImpossibleEventChangesNothing_relaying :
    (live .verifying []).load = .none ∧ (live .verifying []).up.mode = .relaying ∧ (live .verifying []).up.tx = none
      ∧ (∃ x, (inside (live .verifying []) read4 .data .relay 0 0).up.tx = some x ∧ x.handling ≠ .consumed) :=
  ⟨rfl, rfl, rfl, _, rfl, by decide⟩

theorem witness_TheResetPinSetsEveryBlockAfreshAndBeginsALoad_asserted : (State.afterReset [] Store.blank 0 true false ⟨false, false⟩ .pin).resetN = true := rfl
theorem witness_TheResetPinSetsEveryBlockAfreshAndBeginsALoad_released : State.reset.resetN = false := rfl

/-- A part whose REVOKE job, FLOOR job or provisioning burn is in progress. -/
def burningPart (job : BurnJob) : State :=
  { allPassed .permitted with keys := ⟨exampleSlots, exampleFloors, some ⟨job, 100⟩⟩ }
def provisioningPart (cell : StoreCell) : State :=
  { State.reset with load := .none, permit := .provisioning, prov := .burning { Store.blank with sealed := true } cell 0 }

theorem witness_AResetCutsTheCellInItsBurn :
    (burningPart (.revoke 1)).keys.burn = some ⟨.revoke 1, 100⟩ ∧ (burningPart (.revoke 1)).prov = .idle
      ∧ (burningPart (.revoke 1)).resetN = false
      ∧ ∃ t, exec (.powerOn false false false) (burningPart (.revoke 1)) = .next t := ⟨rfl, rfl, rfl, _, rfl⟩
theorem witness_AResetCutsTheCellInItsBurn_floor :
    (burningPart (.floor 2 9)).keys.burn = some ⟨.floor 2 9, 100⟩ ∧ (burningPart (.floor 2 9)).store.floors[2].getLsbD 0 = false
      ∧ (∀ q : Fin 63, q < 0 → (burningPart (.floor 2 9)).store.floors[2].getLsbD q = true)
      ∧ ∃ t, exec .resetNAssert (burningPart (.floor 2 9)) = .next t :=
  ⟨rfl, by decide, fun q h => absurd h (by simp), _, rfl⟩
theorem witness_AResetCutsTheCellInItsBurn_provisioning :
    (provisioningPart .sealMark).prov = .burning { Store.blank with sealed := true } .sealMark 0
      ∧ ∃ t, exec .resetNAssert (provisioningPart .sealMark) = .next t := ⟨rfl, _, rfl⟩

/-- The stores that lead a load to each of its five ends. -/
theorem witness_LoadCompleteFollowsTheStore : State.reset.load = .running false ∧ State.reset.store.sealed = false
    ∧ State.reset.straps.provision = false ∧ State.reset.store.isBlank = true := by decide +kernel
theorem witness_LoadCompleteFollowsTheStore_partial :
    ({ State.reset with store := Store.blank.burn (.active 0) } : State).store.isBlank = false := by decide +kernel
theorem witness_LoadCompleteFollowsTheStore_invalid :
    (({ State.reset with store := Store.blank.burn .sealMark } : State).store.resolve false).sealed = true
      ∧ (({ State.reset with store := Store.blank.burn .sealMark } : State).store.resolve false).loadable = none := by
  refine ⟨rfl, ?_⟩
  have h : configOfBytes (List.replicate 987 0) = none := by decide +kernel
  show (if _ then configOfBytes (List.replicate 987 0) else none) = none
  rw [h, ite_self]

/-- An image of a part with no regions: legal values, the designated instructions at their class table entries. -/
def plainImage : List Byte :=
  let unlisted : List Byte := (List.range 512).map fun i => if i % 2 = 0 then 0x0F else 0x00
  let entries : List Byte :=
    ((((((((((unlisted.set 38 0x80).set 39 0).set 10 0x07).set 11 0).set 8 0x06).set 9 0).set 342 0x0A).set 343
      0).set 370 0x09).set 371 0)
  let table := (entries.set 180 0x0D).set 181 0
  [20] ++ table ++ [0x13, 0x05, 0x04, 0xAB, 0xB9, 0, 1, 0x5A, 0xC3] ++ List.replicate 192 0
    ++ [0xFF, 0, 1, 10, 20, 50, 2, 0, 5, 80, 4, 1] ++ List.replicate 264 0 ++ List.replicate 8 0 ++ [25] ++ List.replicate 3093 0xFF

/-- The image with its CRC. -/
def sealedImage : List Byte := plainImage ++ leBytes 4 (crc32 plainImage).toNat

theorem witness_LoadCompleteFollowsTheStore_valid :
    (storeOfImage sealedImage).sealed = true ∧ ∃ c, (storeOfImage sealedImage).loadable = some c := by
  refine ⟨rfl, Option.isSome_iff_exists.mp ?_⟩
  have h : (configOfBytes (configProper sealedImage)).isSome = true := by decide +kernel
  show (if crc32 (configProper sealedImage) = crc32 (configProper sealedImage) then configOfBytes _ else none).isSome = true
  rw [if_pos rfl]
  exact h

/-- The start-up pulse runs and the line is asserted when the load ends, with a store that loads and with one that does not. -/
theorem witness_LoadCompleteFollowsTheStore_pulse :
    let s := { State.reset with store := storeOfImage sealedImage }
    s.load = .running false ∧ s.pins.ctrlHold = true ∧ s.pulse = .startup
      ∧ State.reset.pins.ctrlHold = true ∧ State.reset.pulse = .startup := ⟨rfl, rfl, rfl, rfl, rfl⟩

theorem witness_TheLoadSettlesTheClock : (8 : Nat) ≤ 25 ∧ (25 : Nat) ≤ 40 := by decide

/-- The table of the small part passes, and it has a pair. -/
theorem witness_TheRegionTableIsValidated : regionsChecked (2 ^ 20) table5 0xFF = true ∧ (pairsOf table5).length = 1 := by decide +kernel

theorem witness_ProvisioningJudgesTheImageAndBurnsInStoreOrder :
    sealedImage.length = 4096 ∧ imageCrcHolds sealedImage = true ∧ imageValid sealedImage = true := by
  have hl : plainImage.length = 4092 := by decide +kernel
  refine ⟨by simp [sealedImage, hl], ?_, by decide +kernel⟩
  have ht : sealedImage.take 4092 = plainImage := by simp [sealedImage, ← hl]
  have hs : slice sealedImage 4092 4 = leBytes 4 (crc32 plainImage).toNat := by
    simp [slice, sealedImage, ← hl]
  simp [imageCrcHolds, ht, hs, leNat_leBytes 4 _ (crc32 plainImage).isLt]
theorem witness_ProvisioningJudgesTheImageAndBurnsInStoreOrder_conflict :
    .revoked 3 ∈ storeCells ∧ (Store.blank.burn (.revoked 3)).burned (.revoked 3) = true
      ∧ (storeOfImage sealedImage).burned (.revoked 3) = false := by
  refine ⟨by simp [storeCells], by decide +kernel, ?_⟩
  show ((Vector.ofFn fun (i : Fin 4) => imageKeyState sealedImage i.1 == 2)[(3 : Fin 4)]) = false
  decide +kernel
theorem witness_ProvisioningJudgesTheImageAndBurnsInStoreOrder_invalid : imageValid (List.replicate 4096 0xFF) = false := by decide +kernel
theorem witness_ProvisioningJudgesTheImageAndBurnsInStoreOrder_reading :
    ({ State.reset with load := .none, permit := .provisioning, prov := .reading } : State).prov = .reading := rfl
theorem witness_ProvisioningJudgesTheImageAndBurnsInStoreOrder_burning :
    (provisioningPart .sealMark).prov = .burning { Store.blank with sealed := true } .sealMark 0 := rfl

theorem witness_NoStepUnburnsACell : ∃ t, step { burningPart (.floor 2 9) with pending := [.floorCellComplete] } = .next t := ⟨_, rfl⟩

theorem test_factory_part_is_unprovisioned :
    (match exec .loadComplete State.reset with | .next t => decide (t.permit = .unprovisioned ∧ t.up.mode = .passThrough) | _ => false)
      = true := by decide +kernel

/-! ## Witnesses: the upstream port -/

/-- A part in UNPROVISIONED, its port in PASS-THROUGH. -/
def transparent (select : Bool) : State :=
  { State.reset with load := .none, permit := .unprovisioned, up := ⟨select, .passThrough, none, none⟩ }

theorem witness_SelectAssertOpensATransaction :
    ((live .verifying []).up.select = false ∧ (live .verifying []).up.mode = .relaying)
      ∧ ((transparent false).up.select = false ∧ (transparent false).up.mode = .passThrough)
      ∧ (State.reset.up.select = false ∧ State.reset.up.mode = .detached) ∧ (transparent true).up.select = true := by decide

/-- A transaction at its instruction byte. -/
def opening (s : State) : State :=
  { s with up := { s.up with select := true, tx := some Tx.opened }, fp := { s.fp with holder := .relay, select := true } }

/-- A part that waits, with some configured values changed. -/
def liveWith (f : Cfg → Cfg) : State := let s := live .verifying []; { s with cfg := f s.cfg }

theorem witness_AnInstructionByteIsPassedOnOrCut :
    (opening (live .verifying [])).up.tx = some Tx.opened ∧ Tx.opened.phase = .instruction
      ∧ ((live .verifying []).entry 0x13).cls = .read
      ∧ (((live .verifying []).entry 0xB9).cls = .sleep ∧ (live .verifying []).queue = []
          ∧ ∀ c : Fin 4, (live .verifying []).ctx c = none)
      ∧ (((liveWith fun c => { c with statusAllow := true }).entry 0x01).cls = .statusWrite
          ∧ (liveWith fun c => { c with statusAllow := true }).cfg.statusAllow = true) := by decide +kernel
theorem witness_AnInstructionByteIsPassedOnOrCut_cut :
    ((live .verifying []).entry 0x5A).cls = .service ∧ ((live .verifying []).entry 0x00).cls = .barred
      ∧ (((live .verifying []).entry 0x01).cls = .statusWrite ∧ (live .verifying []).cfg.statusAllow = false)
      ∧ (((live .verifying []).entry 0xB9).cls = .sleep
          ∧ ¬ (({ live .verifying [] with queue := [.region 0] } : State).queue = [] ∧ True)) := by decide +kernel

theorem witness_AnInstructionByteIsPassedOnOrCut_wire :
    (transparent true).up.tx = none ∧ (transparent true).up.mode = .passThrough ∧ (transparent true).up.select = true := ⟨rfl, rfl, rfl⟩

theorem witness_EraseChipIsJudgedOnTheWholeFlash :
    ((opening (live .verifying [])).entry 0xC7).cls = .eraseChip
      ∧ ∃ a, a < 2 ^ (opening (live .verifying [])).cfg.geometry ∧ (opening (live .verifying [])).Protected a :=
  ⟨by decide +kernel, 0, by decide, .inl ⟨0, boot, rfl, rfl, .inr ⟨rfl, .inl ⟨rfl, by decide⟩⟩⟩⟩
/-- No region is configured and unmapped space is FREE. -/
theorem witness_EraseChipIsJudgedOnTheWholeFlash_unprotected :
    let s := opening { liveWith fun c => { c with unmapped := .free } with regions := [] }
    (s.entry 0xC7).cls = .eraseChip ∧ ∀ a, a < 2 ^ s.cfg.geometry → ¬ s.Protected a := by
  refine ⟨by decide +kernel, ?_⟩
  rintro a - (⟨i, r, h, -⟩ | ⟨-, h⟩)
  · simp [opening, State.region] at h
  · exact absurd ((lockedUnmapped_iff _).mpr h) (by decide +kernel)

/-- A part with 32 MiB of flash and the main firmware's swap of 1.3.1, at the address of a transaction of the given class. -/
def large (cls : TxClass) : State :=
  inside { liveWith fun c => { c with geometry := 25 } with trans := mainSwap } ⟨cls, 3, 1, 0, 1⟩ .address .relay 0 0

theorem witness_AReadIsSentToItsTranslatedAddress :
    (large .read).up.tx = some (txOf (large .read)) ∧ (txOf (large .read)).phase = .address
      ∧ (txOf (large .read)).entry = some ⟨.read, 3, 1, 0, 1⟩
      ∧ 2 ^ 24 ≤ translate (large .read).trans ((0x8FFFF0#32).toNat % 2 ^ (8 * 3) % 2 ^ (large .read).cfg.geometry)
      ∧ ¬ 2 ^ 24 ≤ translate (large .read).trans ((0x100000#32).toNat % 2 ^ (8 * 3) % 2 ^ (large .read).cfg.geometry) := by
  decide +kernel

theorem witness_AWriteReachesTheFlashWholeOnlyWhereNothingIsProtected :
    (large .program).up.tx = some (txOf (large .program)) ∧ (txOf (large .program)).phase = .address
      ∧ (txOf (large .program)).entry = some ⟨.program, 3, 1, 0, 1⟩
      ∧ 2 ^ 24 ≤ translate (large .program).trans ((0x8FFFF0#32).toNat % 2 ^ (8 * 3) % 2 ^ (large .program).cfg.geometry) := by
  decide +kernel
/-- A page of the LOCKED region 0 is protected; no byte of a sector of the FREE region 3 is. -/
theorem witness_AWriteReachesTheFlashWholeOnlyWhereNothingIsProtected_judged :
    let s := inside (live .verifying []) program4 .address .relay 0 0
    (∃ y, 0 ≤ y ∧ y < 0 + 256 ∧ s.Protected y) ∧ ¬ ∃ y, 0x30000 ≤ y ∧ y < 0x30000 + 4096 ∧ s.Protected y :=
  ⟨(rangeLocked_iff _ (0, 256)).mp (by decide +kernel),
    fun h => absurd ((rangeLocked_iff _ (0x30000, 4096)).mpr h) (by decide +kernel)⟩

theorem witness_OtherAddressesAndDummyClocksPass :
    (large .plain).up.tx = some (txOf (large .plain)) ∧ (txOf (large .plain)).phase = .address
      ∧ (txOf (large .plain)).entry = some ⟨.plain, 3, 1, 0, 1⟩
      ∧ TxClass.plain ∉ [TxClass.read, .program, .eraseSector, .eraseBlock] := by decide +kernel
theorem witness_OtherAddressesAndDummyClocksPass_dummy :
    let s := inside (live .verifying []) ⟨.read, 4, 1, 8, 1⟩ .dummy .relay 0 0
    s.up.tx = some (txOf s) ∧ (txOf s).phase = .dummy := by decide +kernel

theorem witness_OtherAddressesAndDummyClocksPass_wire :
    (transparent true).up.tx = none ∧ (transparent true).up.mode = .passThrough ∧ (transparent true).up.select = true := ⟨rfl, rfl, rfl⟩

/-- A READ in its data phase, of the small part with the given permit state and passed images. -/
def reading (address : BitVec 32) (k : Nat) : State := inside (allPassed .permitted) read4 .data .relay address k

theorem witness_TheGateDecidesEachByteOfARead :
    (reading 0 0).up.mode = .relaying ∧ (reading 0 0).up.tx = some (txOf (reading 0 0)) ∧ (txOf (reading 0 0)).phase = .data
      ∧ (txOf (reading 0 0)).entry = some read4 ∧ read4.cls = .read ∧ (txOf (reading 0 0)).handling = .relay
      ∧ (txOf (reading 0 0)).captured = some [] ∧ (txOf (reading 0 0)).address = some 0 := by decide +kernel
/-- Shown: a byte of the signed extent of region 0, and one of unmapped space. -/
theorem witness_TheGateDecidesEachByteOfARead_shown : (reading 0 0).Showable 79 ∧ (reading 0 0).Showable 0x50000 :=
  ⟨(gateByte_flash_iff _ _).mp (by decide +kernel), (gateByte_flash_iff _ _).mp (by decide +kernel)⟩
/-- Filled: for TAIL the byte after the manifest of region 0, for GATE a byte of a REJECTED region, for CROSSING a stream that leaves its
window. -/
theorem witness_TheGateDecidesEachByteOfARead_filled :
    (¬ (reading 0 0).Showable 80 ∧ (reading 0 0).regionAt 80 = some 0 ∧ (reading 0 0).rstate 0 = some .verified)
      ∧ (let s := inside (live .verifying [some (passed .rejected 300 none)]) read4 .data .relay 0 0
         ¬ s.Showable 0 ∧ s.regionAt 0 = some 0 ∧ s.rstate 0 ≠ some .verified)
      ∧ translate mainSwap ((0x8FFFF0 + 16) % 0x2000000) ≠ (translate mainSwap 0x8FFFF0 + 16) % 0x2000000 :=
  ⟨⟨fun h => absurd ((gateByte_flash_iff _ _).mpr h) (by decide +kernel), by decide +kernel, by decide +kernel⟩,
    ⟨fun h => absurd ((gateByte_flash_iff _ _).mpr h) (by decide +kernel), by decide +kernel, by decide +kernel⟩, by decide⟩

/-- The flash's byte at 79, the manifest's last, is delivered. -/
theorem witness_OnlyShowableBytesAreDelivered :
    (txOf (reading 79 0)).handling ≠ .truncated ∧ (txOf (reading 79 0)).address = some 79 ∧ (txOf (reading 79 0)).captured = some []
      ∧ (match exec (.upstreamDataByte 0x42) (reading 79 0) with
          | .next t => decide (t.up.out = some ⟨0x42, .flash⟩) | _ => false) = true := by decide +kernel

theorem witness_AFilledByteRevealsNothing :
    (reading 80 0).up.mode = .relaying ∧ (reading 80 0).up.tx = some (txOf (reading 80 0)) ∧ (txOf (reading 80 0)).phase = .data
      ∧ (txOf (reading 80 0)).entry = some read4 ∧ (txOf (reading 80 0)).captured = some []
      ∧ (txOf (reading 80 0)).address = some 80 ∧ ¬ (reading 80 0).Showable (translate [] ((80 + 0) % 2 ^ 20)) :=
  ⟨by decide +kernel, by decide +kernel, by decide +kernel, by decide +kernel, by decide +kernel, by decide +kernel,
    fun h => absurd ((gateByte_flash_iff _ _).mpr h) (by decide +kernel)⟩

/-- A context in its payload phase for the given owner and region. -/
def hashingCtx (o : Owner) (i : Nat) (message manifest : List Byte) : Ctx :=
  { owner := o, phase := .payload, digest := some (Digest.begin.absorbAll message), store := [⟨i, manifest⟩], nextRead := 0x10100
    wanted := 300, runTag := 1 }

/-- The selected slot of the OBSERVE pair is HASHING, 5 payload bytes absorbed, in context 2. -/
def observed : State :=
  { ((live .verifying [some (passed .unchecked 0 none), some (passed .hashing 5 (some 2)), some (passed .header 0 (some 2)),
      some (passed .unchecked 0 none), none]).modPair 0 fun p =>
      { p with selection := .home, state := .tryingFirst, order := [.home, .alternate] }) with
    contexts := #v[none, none, some (hashingCtx (.pair 0) 1 [1, 2, 3] []), none] }

theorem witness_AShownByteIsObservedAtItsExactPosition :
    let s := inside observed read4 .data .relay 0x10100 5
    s.up.mode = .relaying ∧ s.up.tx = some (txOf s) ∧ (txOf s).phase = .data ∧ (txOf s).entry = some read4
      ∧ (txOf s).handling = .relay ∧ (txOf s).captured = some [] ∧ (txOf s).address = some 0x10100
      ∧ s.region 1 = some slotA ∧ s.rt 1 = some (passed .hashing 5 (some 2)) ∧ 5 + 1 < 300
      ∧ s.ctx 2 = some (hashingCtx (.pair 0) 1 [1, 2, 3] []) ∧ (s.pair 0).any (fun q => q.selected == some 1) = true
      ∧ s.effectiveGate 1 slotA = .observe ∧ s.fp.shadow.power = .awake ∧ s.fp.shadow.busy = .idle
      ∧ translate [] ((0x10100 + 5) % 2 ^ 20) = (translate [] 0x10100 + 5) % 2 ^ 20
      ∧ s.regionAt (translate [] ((0x10100 + 5) % 2 ^ 20)) = some 1
      ∧ translate [] ((0x10100 + 5) % 2 ^ 20) = slotA.base + 256 + 5 := by decide +kernel

/-- What the witness above says of the effective gate is the table of R78. -/
theorem witness_AShownByteIsObservedAtItsExactPosition_gate : (inside observed read4 .data .relay 0x10100 5).GateIs 1 slotA .observe :=
  (effectiveGate_iff _ _ _ _).mp (by decide +kernel)

/-- Region 3 made OBSERVE, one payload byte before the end of its digest in context 1. -/
def nearlyHashed : State :=
  let s := live .verifying [none, none, none, some (passed .hashing 299 (some 1)), none]
  { s with
    regions := [boot, slotA, slotB, { fonts with gate := .observe }, settings]
    contexts := #v[none, some (hashingCtx (.region 3) 3 [1, 2, 3] (List.replicate 80 0x55)), none, none] }

theorem witness_AShownByteIsObservedAtItsExactPosition_last :
    let s := inside nearlyHashed read4 .data .relay 0x3022B 0
    s.up.mode = .relaying ∧ s.up.tx = some (txOf s) ∧ (txOf s).phase = .data ∧ (txOf s).entry = some read4
      ∧ (txOf s).handling = .relay ∧ (txOf s).captured = some [] ∧ (txOf s).address = some 0x3022B
      ∧ s.region 3 = some { fonts with gate := .observe } ∧ s.rt 3 = some (passed .hashing 299 (some 1)) ∧ 299 + 1 = 300
      ∧ s.ctx 1 = some (hashingCtx (.region 3) 3 [1, 2, 3] (List.replicate 80 0x55)) ∧ s.fp.shadow.power = .awake
      ∧ s.fp.shadow.busy = .idle ∧ Owner.region 3 ∉ s.queue ∧ s.VerifierAtWork
      ∧ translate [] ((0x3022B + 0) % 2 ^ 20) = (translate [] 0x3022B + 0) % 2 ^ 20
      ∧ s.regionAt (translate [] ((0x3022B + 0) % 2 ^ 20)) = some 3
      ∧ translate [] ((0x3022B + 0) % 2 ^ 20) = fonts.base + 256 + 299
      ∧ s.pairOf 3 = none ∧ s.sigUnit = .idle := by
  unfold State.VerifierAtWork
  decide +kernel
theorem witness_AShownByteIsObservedAtItsExactPosition_last_gate :
    (inside nearlyHashed read4 .data .relay 0x3022B 0).GateIs 3 { fonts with gate := .observe } .observe :=
  .inl ⟨by decide +kernel, rfl⟩

/-- The home slot's own attempt, its pair FAILED, or the pair's first candidate, the other slot in the given state: HASHING in context 2,
one payload byte before the end, the flash held by a burst. -/
def nearlyDone (o : Owner) (st : PairState) (other : RState) : State :=
  let s := (live .verifying [none, some (passed .hashing 299 (some 2)), some (passed other 0 (if other = .header then some 2 else none))]).modPair 0
    fun p => { p with state := st, selection := if st = .failed then .none else .home, order := [.home, .alternate] }
  { s with
    contexts := #v[none, none, some (hashingCtx o 1 [1, 2, 3] (List.replicate 80 0x55)), none]
    fp := { s.fp with holder := .own (.burst 2 1), select := true } }

/-- The slot of a FAILED pair, its last payload byte observed. -/
theorem witness_AShownByteIsObservedAtItsExactPosition_slot :
    let s := inside (nearlyDone (.region 1) .failed .stale) read4 .data .relay 0x1022B 0
    s.up.mode = .relaying ∧ s.region 1 = some slotA ∧ s.rt 1 = some (passed .hashing 299 (some 2)) ∧ 299 + 1 = 300
      ∧ s.ctx 2 = some (hashingCtx (.region 1) 1 [1, 2, 3] (List.replicate 80 0x55)) ∧ s.pairOf 1 = some 0
      ∧ (s.pair 0).any (fun p => p.state == .failed) = true ∧ s.effectiveGate 1 slotA = .observe ∧ s.fp.shadow.power = .awake
      ∧ s.fp.shadow.busy = .idle ∧ s.queue = [] ∧ s.VerifierAtWork
      ∧ translate [] ((0x1022B + 0) % 2 ^ 20) = (translate [] 0x1022B + 0) % 2 ^ 20 ∧ s.regionAt 0x1022B = some 1
      ∧ 0x1022B = slotA.base + 256 + 299 := by
  unfold State.VerifierAtWork
  decide +kernel
/-- The first candidate of a pair, the second waiting and not, its last payload byte observed. -/
theorem witness_AShownByteIsObservedAtItsExactPosition_candidate :
    ∀ other ∈ [RState.header, .rejected],
      let s := inside (nearlyDone (.pair 0) .tryingFirst other) read4 .data .relay 0x1022B 0
      s.up.mode = .relaying ∧ s.region 1 = some slotA ∧ s.rt 1 = some (passed .hashing 299 (some 2))
        ∧ s.ctx 2 = some (hashingCtx (.pair 0) 1 [1, 2, 3] (List.replicate 80 0x55))
        ∧ s.pair 0 = some ⟨1, 2, .home, .tryingFirst, [.home, .alternate], false⟩ ∧ s.rstate 2 = some other
        ∧ s.effectiveGate 1 slotA = .observe ∧ s.queue = [] ∧ s.VerifierAtWork ∧ s.regionAt 0x1022B = some 1 := by
  unfold State.VerifierAtWork
  decide +kernel

/-- A transaction of a class in its data phase. -/
def ofData (cls : TxClass) (handling : Handling) (k : Nat) : State :=
  inside (live .verifying []) (ofClass cls) .data handling 0 k

theorem witness_DataBytesOutsideTheGatePassUnchanged :
    (({ State.reset with up := ⟨true, .detached, none, none⟩ } : State).up.mode = .detached)
      ∧ ((transparent true).up.mode = .passThrough ∧ (transparent true).up.select = true)
      ∧ ((ofData .plain .relay 0).up.mode = .relaying ∧ (ofData .plain .relay 0).up.tx = some (txOf (ofData .plain .relay 0))
          ∧ (txOf (ofData .plain .relay 0)).phase = .data ∧ (txOf (ofData .plain .relay 0)).entry = some (ofClass .plain)
          ∧ (txOf (ofData .plain .relay 0)).handling = .relay)
      ∧ (txOf (ofData .read .noFlash 0)).handling = .noFlash
      ∧ (txOf (ofData .program .truncated 0)).handling = .truncated := by decide +kernel
theorem witness_DataBytesOutsideTheGatePassUnchanged_snoop :
    (ofData .statusRead .relay 0).up.tx = some (txOf (ofData .statusRead .relay 0))
      ∧ (txOf (ofData .statusRead .relay 0)).k = 0 ∧ (ofData .statusRead .relay 0).fp.shadow.power = .awake
      ∧ (txOf (ofData .statusRead .relay 1)).k ≠ 0 := by decide +kernel

theorem witness_DataBytesOutsideTheGatePassUnchanged_barred :
    (ofData .barred .truncated 0).up.mode = .relaying ∧ (ofData .barred .truncated 0).up.tx = some (txOf (ofData .barred .truncated 0))
      ∧ (txOf (ofData .barred .truncated 0)).phase = .data
      ∧ (txOf (ofData .barred .truncated 0)).entry = some (ofClass .barred) := by decide +kernel

/-- A consumed service transaction that has carried the given bytes. -/
def consumed (bytes : List Byte) (k : Nat) : State :=
  let s := ofData .service .consumed k
  s.setTx (some { txOf s with service := bytes })

theorem witness_ServiceBytesAreTakenAndTheResponseDriven :
    (ofData .service .serviceWait 0).up.mode = .relaying ∧ (txOf (ofData .service .serviceWait 0)).phase = .data
      ∧ (txOf (ofData .service .serviceWait 0)).handling = .serviceWait ∧ (ofData .service .serviceWait 0).cfg.tag = 0xC3
      ∧ (txOf (consumed [] 1)).handling = .consumed ∧ (txOf (consumed [] 1)).service = []
      ∧ (txOf (consumed [0x04] 2)).service = [0x04] := by decide +kernel
theorem witness_ServiceBytesAreTakenAndTheResponseDriven_fetch :
    (live .permitted []).Listening
      ∧ (consumed [0x0A] 2).response = none ∧ (txOf (consumed [0x0A] 2)).k = 0 + 2 ∧ (txOf (consumed [0x0A] 2)).service = [0x0A]
      ∧ ({ consumed [0x0A] 6 with response := some ⟨[1, 255, 0, 0], false⟩ } : State).response = some ⟨[1, 255, 0, 0], false⟩
      ∧ (txOf (consumed [0x0A] 6)).k = 4 + 2 ∧ ([1, 255, 0, 0] : List Byte)[4 - 1]? = some 0
      ∧ ([1, 255, 0, 0] : List Byte).length < 5 := by
  refine ⟨⟨rfl, rfl⟩, ?_⟩
  decide +kernel

/-- Past the request: after an unknown code, after an argument, and after a tag that did not match. -/
theorem witness_ServiceBytesAreTakenAndTheResponseDriven_later :
    (txOf (consumed [0x22] 2)).handling = .consumed ∧ (txOf (consumed [0x22] 2)).service = [0x22]
      ∧ (txOf (consumed [0x04, 0x01] 3)).service.length = 2
      ∧ (ofData .service .relay 1).up.tx = some (txOf (ofData .service .relay 1))
      ∧ (txOf (ofData .service .relay 1)).entry = some (ofClass .service)
      ∧ (txOf (ofData .service .relay 1)).handling = .relay := by decide +kernel

/-- The transaction of the state, of the given entry, is framed for a rise at a byte boundary. -/
def framed (s : State) (e : ClassEntry) : Prop :=
  s.up.select = true ∧ s.up.tx = some (txOf s) ∧ (txOf s).entry = some e ∧ (txOf s).phase ≠ .dummy ∧ (txOf s).received = e.addrBytes

theorem witness_SelectRiseJudgesAndEndsTheTransaction :
    (framed (ofData .writeEnable .relay 0) (ofClass .writeEnable) ∧ (txOf (ofData .writeEnable .relay 0)).handling = .relay)
      ∧ (framed (ofData .sleep .truncated 0) (ofClass .sleep) ∧ (txOf (ofData .sleep .truncated 0)).handling = .truncated)
      ∧ (¬ ((3 : Fin 8) = 0 ∧ True) ∧ (txOf (ofData .wake .relay 0)).handling ≠ .consumed)
      ∧ ((txOf (ofData .program .relay 0)).k = 0 ∧ (txOf (ofData .program .relay 0)).handling ≠ .consumed) := by
  unfold framed
  decide +kernel
theorem witness_SelectRiseJudgesAndEndsTheTransaction_service :
    (framed (ofData .service .serviceWait 0) (ofClass .service) ∧ (txOf (ofData .service .serviceWait 0)).handling = .serviceWait)
      ∧ (framed (consumed [0x04] 2) (ofClass .service) ∧ (txOf (consumed [0x04] 2)).handling = .consumed
          ∧ (txOf (consumed [0x04] 2)).service = [0x04])
      ∧ ((txOf (consumed [0x01] 2)).handling = .consumed ∧ ¬ ((3 : Fin 8) = 0 ∧ True)) := by
  unfold framed
  decide +kernel
theorem witness_SelectRiseJudgesAndEndsTheTransaction_other :
    (State.reset.up.select = false)
      ∧ ((opening (live .verifying [])).up.select = true ∧ (opening (live .verifying [])).up.tx = some Tx.opened
          ∧ Tx.opened.entry = none ∧ Tx.opened.handling ≠ .consumed)
      ∧ ((transparent true).up.select = true ∧ (transparent true).up.tx = none ∧ (transparent true).up.mode = .passThrough)
      ∧ ({ State.reset with up := ⟨true, .detached, none, none⟩ } : State).up.mode ≠ .passThrough := by decide +kernel

/-- A PROGRAM of a range with one data byte taken, before its rise; `latch` is the shadow's write-enable. -/
def writing (s : State) (latch : Latch) (range : Option (Nat × Nat)) : State :=
  let t := inside s program4 .data .relay 0x30000 1
  (t.setTx (some { txOf t with range })).modShadow fun sh => { sh with writeEnable := latch }
def programmed (latch : Latch) (range : Option (Nat × Nat)) (runtime : List (Option Runtime)) : State :=
  writing (live .verifying runtime) latch range

theorem witness_AnAcceptedWriteMarksTheFlashBusy :
    let s := programmed .set none []
    framed s program4 ∧ (txOf s).handling = .relay ∧ (program4.cls = .program → 0 < (txOf s).k)
      ∧ s.fp.shadow.writeEnable ≠ .clear ∧ (txOf s).range = none
      ∧ (programmed .clear none []).fp.shadow.writeEnable = .clear := by
  unfold framed
  decide +kernel

/-- The one region a range touches. -/
theorem only_touched {s : State} {lo n i : Nat} (h : s.touchedRegions (lo, n) = [i]) :
    ∀ i' r', s.region i' = some r' → (∃ a, lo ≤ a ∧ a < lo + n ∧ r'.holds a = true) → i' = i := fun i' r' hr ht =>
  List.mem_singleton.mp (h ▸ (mem_touchedRegions s (lo, n) i').mpr ⟨r', hr, (touched_iff r' (lo, n)).mpr ht⟩)

/-- The one pair of the small part. -/
theorem pair_small {s : State} (h : s.pairs.length = 1) {j : Nat} {p : Pair} (hp : s.pair j = some p) : j = 0 := by
  have := (List.getElem?_eq_some_iff.mp hp).1
  omega

/-- The touched region 3 is VERIFIED, UNCHECKED and SIGNING in turn. -/
theorem witness_AnAcceptedWriteMarksStale :
    ∀ state ∈ [RState.verified, .unchecked, .signing],
      let s := programmed .unknown (some (0x30000, 256)) [none, none, none, some (passed state 300 none)]
      framed s program4 ∧ s.fp.shadow.writeEnable ≠ .clear ∧ (txOf s).range = some (0x30000, 256) ∧ s.region 3 = some fonts
        ∧ fonts.holds 0x30010 = true ∧ s.rt 3 = some (passed state 300 none) ∧ s.queue = []
        ∧ s.pairs.all (fun p => p.home != 3 && p.alternate != 3) = true := by
  unfold framed
  decide +kernel
/-- The touched slot 2 belongs to a SELECTED pair; slot 1 to a SELECTING one. -/
theorem witness_AnAcceptedWriteMarksStale_slot :
    (let s := writing (allPassed .denied) .set (some (0x20000, 256))
     framed s program4 ∧ s.region 2 = some slotB ∧ s.rt 2 = some (passed .unchecked 0 none) ∧ s.queue = [] ∧ s.pairOf 2 = some 0
       ∧ (s.pair 0).any (fun p => p.state == .selected) = true)
      ∧ (let s := writing (live .verifying [none, some (passed .header 0 (some 0))]) .set (some (0x10000, 256))
         framed s program4 ∧ s.pairOf 1 = some 0 ∧ (s.pair 0).any (fun p => p.state == .selecting) = true) := by
  unfold framed
  decide +kernel
/-- The waiting slot 2 is written while slot 1 is HASHING. -/
theorem witness_AnAcceptedWriteMarksStale_waiting :
    let s := writing observed .set (some (0x20000, 256))
    framed s program4 ∧ s.rt 2 = some (passed .header 0 (some 2)) ∧ s.pairOf 2 = some 0
      ∧ s.pair 0 = some ⟨1, 2, .home, .tryingFirst, [.home, .alternate], false⟩ ∧ s.ctxOf (.pair 0) = some 2
      ∧ s.ctx 2 = some (hashingCtx (.pair 0) 1 [1, 2, 3] []) ∧ s.queue = [] ∧ s.rstate 1 = some .hashing
      ∧ s.touchedRegions (0x20000, 256) = [2] := by
  unfold framed
  decide +kernel
/-- The candidate, slot 1, is written: while slot 2 waits, and as the second candidate. -/
theorem witness_AnAcceptedWriteMarksStale_candidate :
    (let s := writing observed .set (some (0x10000, 256))
     framed s program4 ∧ s.rt 1 = some (passed .hashing 5 (some 2)) ∧ s.pairOf 1 = some 0
       ∧ s.pair 0 = some ⟨1, 2, .home, .tryingFirst, [.home, .alternate], false⟩ ∧ s.rt 2 = some (passed .header 0 (some 2))
       ∧ s.region 2 = some slotB ∧ s.ctxOf (.pair 0) = some 2 ∧ s.queue = [] ∧ s.touchedRegions (0x10000, 256) = [1])
      ∧ (let s := writing (observed.modPair 0 fun p => { p with state := .tryingSecond }) .set (some (0x10000, 256))
         (s.pair 0).any (fun p => p.state == .tryingSecond && p.selected == some 1) = true) := by
  unfold framed
  decide +kernel
/-- The clauses on the other regions and the other pairs, for the states above. -/
theorem witness_AnAcceptedWriteMarksStale_alone :
    (∀ i' r', (writing observed .set (some (0x10000, 256))).region i' = some r' →
        (∃ a, 0x10000 ≤ a ∧ a < 0x10000 + 256 ∧ r'.holds a = true) → i' = 1)
      ∧ ∀ j p, (writing (allPassed .denied) .set (some (0x20000, 256))).pair j = some p → p.home = 2 ∨ p.alternate = 2 →
          (writing (allPassed .denied) .set (some (0x20000, 256))).pairOf 2 = some j
            ∧ p.state ∈ [PairState.selecting, .selected, .failed] := by
  refine ⟨only_touched (by decide +kernel), fun j p hp _ => ?_⟩
  obtain rfl := pair_small (by decide +kernel) hp
  obtain rfl : p = ⟨1, 2, .home, .selected, [.home], false⟩ := Option.some.inj (hp.symm.trans (by decide +kernel))
  exact ⟨by decide +kernel, by decide⟩

/-! ## Witnesses: agreement of ports, outputs, windows, records, keys -/

/-- The small part with every image passed, a PEEK waiting: every agreement holds, and the step answers. -/
def agreeing : State := { allPassed .permitted with pending := [.peek] }

theorem witness_EveryStepKeepsThePortsInAgreement : agreeing.PortsAgree ∧ ∃ t, step agreeing = .next t :=
  ⟨by unfold State.PortsAgree; decide +kernel, _, rfl⟩
theorem witness_EveryStepKeepsThePortsInAgreement_fill :
    let s := { agreeing with up := ⟨false, .relaying, none, some ⟨0xFF, .fill .gate⟩⟩ }
    s.FillIsHigh ∧ ∃ t, step s = .next t := ⟨fun o h => by obtain rfl := Option.some.inj h; exact .inr (.inr rfl), _, rfl⟩
theorem witness_EveryStepKeepsTheOutputsInAgreement : agreeing.OutputsAgree ∧ ∃ t, step agreeing = .next t :=
  ⟨by unfold State.OutputsAgree; decide +kernel, _, rfl⟩
theorem witness_EveryStepKeepsTheVerifierAtWork : agreeing.VerifierAtWork ∧ ∃ t, step agreeing = .next t :=
  ⟨by unfold State.VerifierAtWork; decide +kernel, _, rfl⟩
/-- The records are proper with images of which one is REJECTED and one HASHING. -/
theorem witness_EveryStepKeepsTheRuntimeRecordsProper :
    let s := live .verifying [some (passed .rejected 300 none), some (passed .hashing 5 (some 2))]
    s.RecordsProper ∧ ∃ t, step s = .next t := by
  refine ⟨?_, _, rfl⟩
  intro i t h
  match i, h with
  | 0, h => obtain rfl := Option.some.inj h; exact ⟨boot, rfl, by unfold Runtime.Proper; simp [passed, boot]⟩
  | 1, h => obtain rfl := Option.some.inj h; exact ⟨slotA, rfl, by unfold Runtime.Proper; simp [passed, slotA]⟩
  | i + 2, h => simp [State.rt, live, State.drive] at h
/-- The windows agree with a pair whose selection is ALTERNATE, and with one displaced by the recovery swap. -/
theorem witness_EveryStepKeepsTheWindowsInAgreement :
    let s := (allPassed .permitted).setSelection 0 .alternate
    s.trans.length = 2 ∧ s.WindowsAgree ∧ ∃ t, step s = .next t := by
  refine ⟨by decide +kernel, ⟨by decide +kernel, by decide +kernel, ?_⟩, _, rfl⟩
  intro j p h
  match j, h with
  | 0, h => obtain rfl := Option.some.inj h; decide +kernel
  | j + 1, h => exact absurd h (by simp [State.pair, State.setSelection, allPassed, live, State.modPair, pairsOf, table5, boot,
      slotA, slotB, fonts, settings, State.drive])
/-- A part in DENIED whose recovery region, region 1, is VERIFIED by the check that completes; region 0 is its boot window. -/
def recovering : State :=
  { live .denied [] with
    regions := [{ boot with base := 0x50000, length := 0x10000 }, { fonts with role := some .recovery, gate := .hold, policy := .locked, length := 0x10000 }]
    pairs := [], pending := [.signatureCheckComplete], cfg := { smallCfg with bootWindow := some 0 }
    runtime := [some (passed .rejected 300 none), some (passed .signing 300 none)]
    sigUnit := .checking ⟨1, rfcDigest, rfcSignature, 1, 1⟩ false rfcKey 500 }

theorem witness_EveryStepKeepsTheWindowsInAgreement_recovery :
    recovering.WindowsAgree ∧ recovering.SwapStands ∧ recovering.recoverySwap = false
      ∧ (match step recovering with | .next t => t.recoverySwap | _ => false) = true := by
  refine ⟨⟨by decide +kernel, by decide +kernel, fun j p h => by simp [recovering, State.pair] at h⟩, ?_, rfl, by decide +kernel⟩
  intro _ k hk hv
  obtain rfl : k = 1 := Option.some.inj (hk.symm.trans (by decide +kernel))
  exact absurd hv (by decide +kernel)
theorem witness_EveryStepKeepsTheKeyStoreInAgreement : State.reset.PortsAgree ∧ State.reset.RecordsProper ∧ State.reset.KeysAgree
    ∧ ∃ t, step { State.reset with pending := [.loadComplete] } = .next t :=
  ⟨by unfold State.PortsAgree; decide +kernel, fun i t h => by simp [State.rt, State.reset, State.afterReset] at h,
    fun h => by simp [State.reset, State.afterReset, PermitState.running] at h, _, rfl⟩
/-- The same in a running permit state with a burn in progress: the cells of the store give the key store's floors and slot states. -/
theorem witness_EveryStepKeepsTheKeyStoreInAgreement_running :
    let s := { allPassed .permitted with
      store := (Store.blank.burn (.active 1)).burn (.floor 2 0)
      keys := ⟨#v[KeySlot.none, ⟨.active, 4, []⟩, KeySlot.none, KeySlot.none], #v[0, 0, 1, 0, 0, 0, 0, 0], some ⟨.floor 2 5, 100⟩⟩
      pending := [.floorCellComplete] }
    s.permit.running = true ∧ s.KeysAgree ∧ ∃ t, step s = .next t := by
  refine ⟨rfl, fun _ => ⟨by decide +kernel, by decide +kernel, ?_⟩, _, rfl⟩
  intro b hb
  obtain rfl := Option.some.inj hb
  exact ⟨by decide, by decide⟩

theorem witness_ASwapExchangesItsWindows :
    (0x100000 + 0x800000 ≤ 0x900000 ∨ 0x900000 + 0x800000 ≤ 0x100000)
      ∧ ∀ w ∈ installSwap 0 0x1F00000 0x40000 .recovery none [],
          (w.from_ + w.length ≤ 0x100000 ∨ 0x100000 + 0x800000 ≤ w.from_)
            ∧ (w.from_ + w.length ≤ 0x900000 ∨ 0x900000 + 0x800000 ≤ w.from_) := by decide

/-! ## Witnesses: service requests -/

theorem witness_ARequestIsItsServiceTransaction :
    (live .permitted []).Listening ∧ ((live .permitted []).entry (live .permitted []).cfg.serviceByte).cls = .service
      ∧ ((live .permitted []).entry (live .permitted []).cfg.serviceByte).addrBytes = 0
      ∧ ((live .permitted []).entry (live .permitted []).cfg.serviceByte).dummy = 0 :=
  ⟨⟨rfl, rfl⟩, by decide +kernel, by decide +kernel, by decide +kernel⟩

theorem witness_ReportsAnswerAndOnlyReportClears :
    (allPassed .permitted).Listening ∧ (allPassed .permitted).OutputsAgree
      ∧ (allPassed .permitted).region ((1 : Byte).toNat) = some slotA ∧ slotA.gate ≠ .opened
      ∧ (allPassed .permitted).rt ((1 : Byte).toNat) = some (passed .verified 300 none)
      ∧ (allPassed .permitted).region ((4 : Byte).toNat) = some settings ∧ settings.gate = .opened
      ∧ (0x08 : Byte) ∉ knownCodes :=
  ⟨⟨rfl, rfl⟩, by unfold State.OutputsAgree; decide +kernel, by decide +kernel⟩

theorem witness_TheReportIsLaidOut : (allPassed .permitted).report = some ⟨1, .power, none, ⟨0, 0, 0, 0⟩⟩
    ∧ (∀ n, (none : Option Nat) = some n → n < 65536) ∧ (allPassed .permitted).runtime.length ≤ 16 := by decide +kernel

/-- A refusal with an address and one without; an entry of an unpaired region and one of a slot. -/
theorem witness_TheReportIsLaidOut_parts :
    (⟨1, some ⟨.program, some 0x1234, .policy⟩⟩ : Violation).last = some ⟨.program, some 0x1234, .policy⟩
      ∧ (allPassed .permitted).rt 0 = some (passed .verified 300 none) ∧ (allPassed .permitted).pairOf 0 = none
      ∧ (allPassed .permitted).rt 2 = some (passed .unchecked 0 none) ∧ (allPassed .permitted).pairOf 2 = some 0 := by decide +kernel

/-- ALREADY by the pair: slot 1 is REJECTED, its pair still SELECTING. -/
theorem witness_VerifyIsTurnedAwayOrStartsANewAttempt_selecting :
    let s := live .verifying [none, some (passed .rejected 0 none), some (passed .header 0 (some 0))]
    s.Listening ∧ s.region ((1 : Byte).toNat) = some slotA ∧ slotA.gate ≠ .opened
      ∧ s.rt ((1 : Byte).toNat) = some (passed .rejected 0 none) ∧ s.pairOf ((1 : Byte).toNat) = some 0
      ∧ (s.pair 0).any (fun p => p.state == .selecting) = true := ⟨⟨rfl, rfl⟩, by decide +kernel⟩
theorem witness_VerifyIsTurnedAwayOrStartsANewAttempt :
    let s := live .verifying [some (passed .hashing 5 (some 0)), some (passed .verified 300 none)]
    s.Listening ∧ s.region ((0 : Byte).toNat) = some boot ∧ boot.gate ≠ .opened
      ∧ s.rt ((0 : Byte).toNat) = some (passed .hashing 5 (some 0)) := ⟨⟨rfl, rfl⟩, by decide +kernel⟩
/-- REFUSED_STATE: region 0, VERIFIED, REQUIRED and unpaired; and region 1, the selection of a SELECTED pair. -/
theorem witness_VerifyIsTurnedAwayOrStartsANewAttempt_refused :
    let s := allPassed .permitted
    s.rt ((0 : Byte).toNat) = some (passed .verified 300 none) ∧ s.pairOf ((0 : Byte).toNat) = none
      ∧ boot.role ≠ some .optional ∧ (boot.role = some .required → s.permit ≠ .denied)
      ∧ (∀ p ∈ s.pairs, p.state ≠ .selecting ∧ p.state ≠ .failed ∧ (p.state = .selected → p.selected = some ((1 : Byte).toNat))) := by decide +kernel
/-- STARTED: the OPTIONAL region 3 with every context free; the unselected slot 2 with none free. -/
theorem witness_VerifyIsTurnedAwayOrStartsANewAttempt_started :
    (allPassed .permitted).VerifierAtWork ∧ fonts.role = some .optional ∧ (allPassed .permitted).pairOf ((3 : Byte).toNat) = none
      ∧ (allPassed .permitted).rt ((3 : Byte).toNat) = some (passed .verified 300 none)
      ∧ (allPassed .permitted).ctx 0 = none ∧ ∀ d : Fin 4, d < 0 → ((allPassed .permitted).ctx d).isSome = true := by
  unfold State.VerifierAtWork
  decide +kernel
theorem witness_VerifyIsTurnedAwayOrStartsANewAttempt_waiting :
    let s := { allPassed .permitted with contexts := Vector.replicate 4 (some (hashingCtx (.region 3) 3 [] [])) }
    s.VerifierAtWork ∧ s.pairOf ((2 : Byte).toNat) = some 0
      ∧ (s.pair 0).any (fun p => p.state == .selected && p.selected != some ((2 : Byte).toNat)) = true
      ∧ s.rt ((2 : Byte).toNat) = some (passed .unchecked 0 none) ∧ ∀ c : Fin 4, (s.ctx c).isSome = true := by
  unfold State.VerifierAtWork
  decide +kernel

theorem witness_ARestartSetsTheRunAfresh :
    (allPassed .permitted).Listening ∧ (allPassed .permitted).permit ≠ .verifying ∧ (live .verifying []).Listening
      ∧ (live .verifying []).permit = .verifying
      ∧ (allPassed .permitted).region 0 = some boot ∧ boot.gate ≠ .opened ∧ (allPassed .permitted).region 4 = some settings
      ∧ (allPassed .permitted).sigUnit = .idle := ⟨⟨rfl, rfl⟩, by decide, ⟨rfl, rfl⟩, by decide +kernel⟩
theorem witness_ARestartSetsTheRunAfresh_checking :
    let e : SigEntry := ⟨3, 0, [], 1, 1⟩
    ({ allPassed .permitted with sigUnit := .checking e false [] 7 } : State).sigUnit = .checking e false [] 7 := rfl
/-- A table with nothing REQUIRED, and one with a REQUIRED region. -/
theorem witness_ARestartSetsTheRunAfresh_required :
    (let s := { live .permitted [] with regions := [fonts, settings], pairs := [] }
     (∀ i r, s.region i = some r → s.pairOf i = none → r.role ≠ some .required)
       ∧ ∀ j p, s.pair j = some p → s.pairRole p ≠ some .required)
      ∧ (allPassed .permitted).region 0 = some boot ∧ (allPassed .permitted).pairOf 0 = none ∧ boot.role = some .required := by
  refine ⟨⟨fun i r h _ => ?_, fun j p h => by cases h⟩, rfl, by decide +kernel, rfl⟩
  match i, h with
  | 0, h => obtain rfl := Option.some.inj h; decide
  | 1, h => obtain rfl := Option.some.inj h; decide

/-- The queue of a run start of the small part: region 0 of priority 3, the pair of priority 2, region 3 of priority 0; and a held image
whose line is released. -/
theorem witness_ARestartSetsTheRunAfresh_order :
    (allPassed .permitted).IsRunOrder [.region 0, .pair 0, .region 3] ∧ boot.gate = .hold ∧ (allPassed .permitted).pairOf 0 = none
      ∧ (allPassed .permitted).pins.ctrlHold = false := by
  refine ⟨⟨by decide, fun i => ?_, fun j => ?_, by decide +kernel⟩, rfl, by decide +kernel, by decide +kernel⟩
  · match i with
    | 0 => exact iff_of_true (by decide) ⟨boot, rfl, by decide, by decide +kernel⟩
    | 1 => exact iff_of_false (by decide) fun ⟨_, _, _, h⟩ => absurd h (by decide +kernel)
    | 2 => exact iff_of_false (by decide) fun ⟨_, _, _, h⟩ => absurd h (by decide +kernel)
    | 3 => exact iff_of_true (by decide) ⟨fonts, rfl, by decide, by decide +kernel⟩
    | 4 => exact iff_of_false (by decide) fun ⟨r, h, h', _⟩ => h' (Option.some.inj h ▸ rfl)
    | i + 5 => exact iff_of_false (by simp) fun ⟨r, h, _⟩ => absurd h (by simp [allPassed, State.region, live, State.modPair, table5, State.drive])
  · match j with
    | 0 => exact iff_of_true (by decide) ⟨_, rfl, by decide +kernel, by decide +kernel⟩
    | j + 1 => exact iff_of_false (by simp) fun ⟨p, h, _⟩ => absurd (pair_small (by decide +kernel) h) (by omega)

/-- Five images of one priority: the fifth waits. -/
theorem witness_ARestartSetsTheRunAfresh_waiting :
    let s := { live .permitted [] with regions := List.replicate 5 fonts, pairs := [] }
    s.IsRunOrder [.region 0, .region 1, .region 2, .region 3, .region 4]
      ∧ Owner.region 4 ∈ ([.region 0, .region 1, .region 2, .region 3, .region 4] : List Owner).drop 4 := by
  refine ⟨⟨by decide, fun i => ?_, fun j => ?_, by decide +kernel⟩, by decide⟩
  · match i with
    | 0 | 1 | 2 | 3 | 4 => exact iff_of_true (by decide) ⟨fonts, rfl, by decide, rfl⟩
    | i + 5 => exact iff_of_false (by simp) fun ⟨r, h, _⟩ => absurd h (by simp [State.region])
  · exact iff_of_false (by simp) fun ⟨p, h, _⟩ => absurd h (by simp [State.pair])

/-- The running images of the small part: region 0 of kind 0, and slot 1 of kind 1, the selection of its pair. -/
theorem running_boot : (allPassed .permitted).RunningImage 0 boot ⟨300, 5, 7, 1⟩ :=
  ⟨rfl, rfl, by decide +kernel, ⟨passed .verified 300 none, by decide +kernel, rfl⟩, .inl (by decide +kernel)⟩
theorem running_images (i : Nat) (r : Region) (m : Recorded) (h : (allPassed .permitted).RunningImage i r m) :
    (i = 0 ∧ r = boot ∨ i = 1 ∧ r = slotA) ∧ m = ⟨300, 5, 7, 1⟩ := by
  obtain ⟨h1, h2, h3, ⟨t, h4, h5⟩, -⟩ := h
  match i, h1, h3, h4 with
  | 0, h1, _, h4 => obtain rfl := Option.some.inj h1; obtain rfl := Option.some.inj h4; exact ⟨.inl ⟨rfl, rfl⟩, (Option.some.inj h5).symm⟩
  | 1, h1, _, h4 => obtain rfl := Option.some.inj h1; obtain rfl := Option.some.inj h4; exact ⟨.inr ⟨rfl, rfl⟩, (Option.some.inj h5).symm⟩
  | 2, _, h3, _ => exact absurd h3 (by decide +kernel)
  | 3, h1, _, _ => obtain rfl := Option.some.inj h1; exact absurd h2 (by decide)
  | 4, h1, _, _ => obtain rfl := Option.some.inj h1; exact absurd h2 (by decide)
  | i + 5, h1, _, _ => exact absurd h1 (by simp [allPassed, State.region, live, State.modPair, table5, State.drive])

/-- Kind 0 has floor 2 below the running epoch 5; kind 2 has no running image; 8 is no kind. -/
theorem witness_RaiseFloorIsJudgedInOrder :
    (allPassed .permitted).Listening ∧ (allPassed .permitted).permit = .permitted ∧ (live .denied []).permit ≠ .permitted
      ∧ 7 < (8 : Byte).toNat ∧ boot.kind = some 0
      ∧ (∀ i r m, (allPassed .permitted).RunningImage i r m → r.kind = some 0 → (5 : Nat) ≤ m.epoch)
      ∧ (∀ i r m, (allPassed .permitted).RunningImage i r m → r.kind ≠ some 2)
      ∧ (allPassed .permitted).keys.burn = none ∧ (allPassed .permitted).keys.floors[(0 : Fin 8)] < 5 := by
  refine ⟨⟨rfl, rfl⟩, rfl, by decide, by decide, rfl, ?_, ?_, rfl, by decide⟩
  · intro i r m h _
    rw [(running_images i r m h).2]
  · intro i r m h
    rcases (running_images i r m h).1 with ⟨-, rfl⟩ | ⟨-, rfl⟩ <;> decide
/-- UNCHANGED at the boundary: the floor of kind 0 is the running epoch 5. -/
theorem witness_RaiseFloorIsJudgedInOrder_unchanged :
    let s := { allPassed .permitted with keys := ⟨exampleSlots, #v[5, 3, 1, 0, 0, 0, 0, 0], none⟩ }
    s.Listening ∧ s.RunningImage 0 boot ⟨300, 5, 7, 1⟩ ∧ s.keys.burn = none ∧ (5 : Nat) ≤ s.keys.floors[(0 : Fin 8)] :=
  ⟨⟨rfl, rfl⟩, running_boot, rfl, by decide⟩
theorem witness_RaiseFloorIsJudgedInOrder_busy :
    (burningPart (.revoke 1)).keys.burn.isSome = true ∧ (burningPart (.revoke 1)).permit = .permitted := by decide

/-- Slot 3 EMPTY, slot 2 REVOKED; revoking slot 1, the key of the running images, would strand them. -/
theorem witness_RevokeIsJudgedInOrder :
    (allPassed .permitted).Listening ∧ 3 < (4 : Byte).toNat ∧ (allPassed .permitted).keys.slots[(3 : Fin 4)].state = .empty
      ∧ (allPassed .permitted).keys.slots[(2 : Fin 4)].state = .revoked
      ∧ (allPassed .permitted).keys.slots[(1 : Fin 4)].state = .active ∧ (allPassed .permitted).keys.burn = none
      ∧ (∃ i r m, (allPassed .permitted).RunningImage i r m ∧ m.keySlot = 1) :=
  ⟨⟨rfl, rfl⟩, by decide, by decide, by decide, by decide, rfl, 0, boot, _, running_boot, rfl⟩
theorem witness_RevokeIsJudgedInOrder_busy :
    (burningPart (.floor 2 9)).Listening ∧ (burningPart (.floor 2 9)).permit = .permitted
      ∧ (burningPart (.floor 2 9)).keys.slots[(1 : Fin 4)].state = .active
      ∧ (burningPart (.floor 2 9)).keys.burn.isSome = true := ⟨⟨rfl, rfl⟩, rfl, by decide, rfl⟩
/-- Slot 0 can be revoked once slot 1 allows every kind: no running image names it, and each required kind has slot 1. -/
theorem witness_RevokeIsJudgedInOrder_started :
    let s := { allPassed .permitted with
      keys := ⟨#v[⟨.active, 0xFF, []⟩, ⟨.active, 0xFF, []⟩, KeySlot.none, KeySlot.none], exampleFloors, none⟩ }
    s.Listening ∧ s.keys.slots[(0 : Fin 4)].state = .active ∧ s.keys.burn = none
      ∧ ¬ ((∃ i r m, s.RunningImage i r m ∧ m.keySlot = 0)
            ∨ ∃ i r q, s.region i = some r ∧ r.role = some .required ∧ r.kind = some q
                ∧ ∀ o : Fin 4, o ≠ 0 → ¬ (s.keys.slots[o].state = .active ∧ s.keys.slots[o].allowed.getLsbD q.1 = true)) := by
  refine ⟨⟨rfl, rfl⟩, by decide, rfl, ?_⟩
  rintro (⟨i, r, m, h, hk⟩ | ⟨i, r, q, -, -, -, h⟩)
  · rw [(running_images i r m h).2] at hk
    exact absurd hk (by decide)
  · refine h 1 (by decide) ⟨rfl, ?_⟩
    revert q
    decide

/-! ## Witnesses: the verifier -/

/-- A burst for context 0 is in progress. -/
def bursting (left : Nat) (x : Ctx) (runtime : List (Option Runtime)) : State :=
  let s := live .verifying runtime
  { s with contexts := #v[some x, none, none, none], fp := { s.fp with holder := .own (.burst 0 left), select := true } }

/-- The context that gathers the manifest of region 0, `n` bytes held. -/
def gatheringCtx (n : Nat) : Ctx :=
  { owner := .region 0, phase := .header, digest := none, store := [⟨0, List.replicate n 0x55⟩], nextRead := n, wanted := 80 - n
    runTag := 1 }

theorem witness_ABurstByteGoesToItsContext :
    (bursting 70 (gatheringCtx 10) []).fp.holder = .own (.burst 0 70) ∧ (bursting 70 (gatheringCtx 10) []).ctx 0 = some (gatheringCtx 10)
      ∧ (gatheringCtx 10).phase = .header ∧ (gatheringCtx 10).store = [⟨0, List.replicate 10 0x55⟩]
      ∧ (List.replicate 10 (0x55 : Byte)).length < 79 := by decide +kernel
theorem witness_ABurstByteGoesToItsContext_payload :
    let x := hashingCtx (.region 0) 0 [1, 2, 3] []
    let s := bursting 256 x [some (passed .hashing 5 (some 0))]
    s.fp.holder = .own (.burst 0 256) ∧ s.ctx 0 = some x ∧ x.phase = .payload ∧ x.digest = some (Digest.begin.absorbAll [1, 2, 3])
      ∧ s.region 0 = some boot ∧ s.rt 0 = some (passed .hashing 5 (some 0)) ∧ 5 + 1 < 300 ∧ x.owner = .region 0 := by decide +kernel

/-- The pair's context, `h` bytes of the home slot's manifest held, and `a` of the alternate slot's, both of a manifest that passes. -/
def pairCtx (h a : Nat) : Ctx :=
  let bytes := (exampleManifest 1 1 0 3 300)
  { owner := .pair 0, phase := .header, digest := none, store := [⟨1, bytes.take h⟩, ⟨2, bytes.take a⟩], nextRead := 0x20000 + a
    wanted := 160 - h - a, runTag := 1 }

/-- The alternate slot's manifest is gathered, the home slot's being whole. -/
theorem witness_ABurstByteGoesToItsContext_second :
    (pairCtx 80 10).phase = .header ∧ (∀ m ∈ [(⟨1, (exampleManifest 1 1 0 3 300).take 80⟩ : Manifest)], m.bytes.length = 80 ∧ m.region ≠ 2)
      ∧ (pairCtx 80 10).store = [⟨1, (exampleManifest 1 1 0 3 300).take 80⟩] ++ ⟨2, (exampleManifest 1 1 0 3 300).take 10⟩ :: []
      ∧ ((exampleManifest 1 1 0 3 300).take 10).length < 79 := by decide +kernel

/-- The records of both slots in HEADER, the home slot's as given. -/
def pairAtHeader (home : Runtime) : List (Option Runtime) := [none, some home, some ⟨.header, none, none, 0, some 0, false, 1⟩]

theorem witness_TheHeaderChecksAreMadeInOrder : engine.kind = some 2 ∧ (exampleManifest 1 2 1 1 0x62000).length = 80 := by decide

theorem witness_TheLastManifestByteBringsTheHeaderCheck :
    let r : Runtime := ⟨.header, none, none, 0, some 0, false, 1⟩
    let s := bursting 1 (gatheringCtx 79) [some r]
    s.fp.holder = .own (.burst 0 1) ∧ s.ctx 0 = some (gatheringCtx 79) ∧ (gatheringCtx 79).phase = .header
      ∧ (gatheringCtx 79).owner = .region 0 ∧ (gatheringCtx 79).store = [⟨0, List.replicate 79 0x55⟩]
      ∧ (List.replicate 79 (0x55 : Byte)).length = 79 ∧ (gatheringCtx 79).runTag = s.runNumber ∧ s.region 0 = some boot
      ∧ s.rt 0 = some r ∧ s.pairOf 0 = none ∧ Owner.region 0 ∉ s.queue
      ∧ judgeManifest s.keys.slots s.keys.floors boot (List.replicate 79 0x55 ++ [0x55]) = .fail .format := by decide +kernel
/-- A manifest that passes: kind 0, slot 0, epoch 2 at the floor 2, 300 payload bytes. -/
theorem witness_TheLastManifestByteBringsTheHeaderCheck_pass :
    judgeManifest exampleSlots exampleFloors boot (exampleManifest 1 0 0 2 300) = .pass ⟨300, 2, 9, 0⟩ := by decide
/-- The attempt of a VERIFY on a slot of a FAILED pair. -/
theorem witness_TheLastManifestByteBringsTheHeaderCheck_slot :
    let r : Runtime := ⟨.header, none, none, 0, some 0, false, 1⟩
    let x : Ctx := { gatheringCtx 79 with owner := .region 1, store := [⟨1, List.replicate 79 0x55⟩] }
    let s := (bursting 1 x [none, some r]).modPair 0 fun p => { p with state := .failed }
    s.fp.holder = .own (.burst 0 1) ∧ s.ctx 0 = some x ∧ x.phase = .header ∧ x.runTag = s.runNumber ∧ s.region 1 = some slotA
      ∧ s.rt 1 = some r ∧ s.pairOf 1 = some 0 ∧ (s.pair 0).any (fun p => p.state == .failed) = true ∧ s.queue = [] := by decide +kernel

/-- The home slot's last manifest byte. -/
theorem witness_TheLastManifestByteBringsTheHeaderCheck_home :
    let y : Runtime := ⟨.header, none, none, 0, some 0, false, 1⟩
    let s := bursting 1 (pairCtx 79 0) (pairAtHeader y)
    s.fp.holder = .own (.burst 0 1) ∧ s.ctx 0 = some (pairCtx 79 0) ∧ (pairCtx 79 0).owner = .pair 0
      ∧ s.pair 0 = some ⟨1, 2, .none, .selecting, [], false⟩
      ∧ (pairCtx 79 0).store = [⟨1, (exampleManifest 1 1 0 3 300).take 79⟩, ⟨2, []⟩]
      ∧ ((exampleManifest 1 1 0 3 300).take 79).length = 79 ∧ (pairCtx 79 0).runTag = s.runNumber ∧ s.region 1 = some slotA
      ∧ s.region 2 = some slotB ∧ s.rt 1 = some y ∧ s.queue = []
      ∧ judgeManifest s.keys.slots s.keys.floors slotA ((exampleManifest 1 1 0 3 300).take 79 ++ [0x55]) = .pass ⟨300, 3, 9, 0⟩ := by
  decide +kernel
/-- The alternate slot's last manifest byte: it passes behind a home slot that passed with a lower sequence, and behind one REJECTED. -/
theorem witness_TheLastManifestByteBringsTheHeaderCheck_ranking :
    ∀ y ∈ [(⟨.header, none, some ⟨300, 3, 7, 0⟩, 0, some 0, false, 1⟩ : Runtime), passed .rejected 0 none],
      let s := bursting 1 (pairCtx 80 79) (pairAtHeader y)
      s.ctxOf (.pair 0) = some 0 ∧ s.ctx 0 = some (pairCtx 80 79) ∧ s.pair 0 = some ⟨1, 2, .none, .selecting, [], false⟩
        ∧ (pairCtx 80 79).store = [⟨1, (exampleManifest 1 1 0 3 300).take 80⟩, ⟨2, (exampleManifest 1 1 0 3 300).take 79⟩]
        ∧ s.rt 1 = some y ∧ s.rt 2 = some ⟨.header, none, none, 0, some 0, false, 1⟩ ∧ s.queue = []
        ∧ judgeManifest s.keys.slots s.keys.floors slotB ((exampleManifest 1 1 0 3 300).take 79 ++ [0x55]) = .pass ⟨300, 3, 9, 0⟩
        ∧ judgeManifest s.keys.slots s.keys.floors slotB ((exampleManifest 1 1 0 3 300).take 79 ++ [0xFF]) = .pass ⟨300, 3, 9, 0⟩ := by
  decide +kernel

theorem witness_TheLastPayloadByteCompletesTheDigest :
    let x := hashingCtx (.region 0) 0 [1, 2, 3] (List.replicate 80 0x55)
    let s := bursting 1 x [some (passed .hashing 299 (some 0))]
    s.fp.holder = .own (.burst 0 1) ∧ s.ctx 0 = some x ∧ x.phase = .payload ∧ x.owner = .region 0
      ∧ x.store = [⟨0, List.replicate 80 0x55⟩] ∧ x.digest = some (Digest.begin.absorbAll [1, 2, 3])
      ∧ s.rt 0 = some (passed .hashing 299 (some 0)) ∧ 299 + 1 = 300 ∧ s.pairOf 0 = none ∧ Owner.region 0 ∉ s.queue
      ∧ s.VerifierAtWork ∧ s.sigUnit = .idle := by
  unfold State.VerifierAtWork
  decide +kernel
/-- The slot of a FAILED pair, and the first candidate of a pair, the second waiting and not. -/
theorem witness_TheLastPayloadByteCompletesTheDigest_pair :
    (let s := nearlyDone (.region 1) .failed .stale
     s.fp.holder = .own (.burst 2 1) ∧ s.ctx 2 = some (hashingCtx (.region 1) 1 [1, 2, 3] (List.replicate 80 0x55))
       ∧ s.rt 1 = some (passed .hashing 299 (some 2)) ∧ s.pairOf 1 = some 0 ∧ (s.pair 0).any (fun p => p.state == .failed) = true
       ∧ s.queue = [] ∧ s.VerifierAtWork)
    ∧ ∀ other ∈ [RState.header, .rejected],
        let s := nearlyDone (.pair 0) .tryingFirst other
        s.fp.holder = .own (.burst 2 1) ∧ s.ctx 2 = some (hashingCtx (.pair 0) 1 [1, 2, 3] (List.replicate 80 0x55))
          ∧ s.region 1 = some slotA ∧ s.rt 1 = some (passed .hashing 299 (some 2)) ∧ s.rstate 2 = some other
          ∧ s.pair 0 = some ⟨1, 2, .home, .tryingFirst, [.home, .alternate], false⟩ ∧ s.queue = [] ∧ s.VerifierAtWork := by
  unfold State.VerifierAtWork
  decide +kernel

theorem witness_TheDigestIsTheHashOfThePaddedBlocks :
    let block : List Byte := [0x61, 0x62, 0x63, 0x80] ++ List.replicate 52 0 ++ beBytes 8 24
    (∀ b ∈ [block], b.length = 64)
      ∧ ∃ zeros : Nat, zeros < 64
          ∧ [block].flatten = [0x61, 0x62, 0x63] ++ 0x80 :: List.replicate zeros 0 ++ beBytes 8 (8 * 3) :=
  ⟨by decide, 52, by decide, by decide⟩

/-- The check of region 3's signature is in the unit, with the vector of RFC 6979, and passes. -/
def checkingPart (withdrawn : Bool) (state : RState) : State :=
  { live .verifying [none, none, none, some (passed state 300 none)] with
    sigUnit := .checking ⟨3, rfcDigest, rfcSignature, 1, 1⟩ withdrawn rfcKey 500, pending := [.signatureCheckComplete] }

theorem witness_ACheckResultIsAppliedOrDiscarded :
    (checkingPart false .signing).sigUnit = .checking ⟨3, rfcDigest, rfcSignature, 1, 1⟩ false rfcKey 500
      ∧ (checkingPart false .signing).runNumber = 1 ∧ (checkingPart false .signing).rt 3 = some (passed .signing 300 none)
      ∧ (checkingPart false .signing).pairOf 3 = none ∧ Owner.region 3 ∉ (checkingPart false .signing).queue
      ∧ (checkingPart false .signing).sigList = [] ∧ (checkingPart true .stale).VerifierAtWork := by
  unfold State.VerifierAtWork
  decide +kernel
/-- The check of a slot whose pair is FAILED. -/
theorem witness_ACheckResultIsAppliedOrDiscarded_slot :
    let s := ({ live .verifying [none, some (passed .signing 300 none)] with
      sigUnit := .checking ⟨1, rfcDigest, rfcSignature, 1, 1⟩ false rfcKey 500 } : State).modPair 0 fun p => { p with state := .failed }
    s.sigUnit = .checking ⟨1, rfcDigest, rfcSignature, 1, 1⟩ false rfcKey 500 ∧ s.runNumber = 1
      ∧ s.rt 1 = some (passed .signing 300 none) ∧ s.pairOf 1 = some 0 ∧ (s.pair 0).any (fun p => p.state == .failed) = true
      ∧ s.queue = [] := by decide +kernel

/-- Both manifests of the pair passed, the alternate slot of the higher sequence. -/
theorem witness_APairTriesItsCandidatesInOrder :
    let s := live .verifying [none, some ⟨.header, none, some ⟨300, 5, 7, 1⟩, 0, some 0, false, 1⟩,
      some ⟨.header, none, some ⟨300, 5, 8, 1⟩, 0, some 0, false, 1⟩]
    (s.pair 0).any (fun p => (s.rt p.home).any (fun h => h.state == .header && h.recorded.any (·.sequence == 7))
      && (s.rt p.alternate).any fun a => a.state == .header && a.recorded.any (·.sequence == 8)) = true := by decide +kernel
/-- The first candidate's check is in the unit, the second waits in the pair's context. -/
theorem witness_APairTriesItsCandidatesInOrder_result :
    let x := hashingCtx (.pair 0) 1 [] []
    let s := { observed with
      sigUnit := .checking ⟨1, rfcDigest, rfcSignature, 1, 1⟩ false rfcKey 500
      runtime := [none, some (passed .signing 300 none), some (passed .header 0 (some 2))]
      contexts := #v[none, none, some x, none] }
    s.rt 1 = some (passed .signing 300 none) ∧ s.runNumber = 1 ∧ s.pairOf 1 = some 0
      ∧ s.pair 0 = some ⟨1, 2, .home, .tryingFirst, [.home, .alternate], false⟩ ∧ s.rt 2 = some (passed .header 0 (some 2))
      ∧ s.region 2 = some slotB ∧ s.ctxOf (.pair 0) = some 2 ∧ s.ctx 2 = some x ∧ s.queue = [] := by decide +kernel

/-- The second candidate's check is in the unit. -/
theorem witness_APairTriesItsCandidatesInOrder_last :
    let s := { observed.modPair 0 (fun p => { p with state := .tryingSecond }) with
      sigUnit := .checking ⟨1, rfcDigest, rfcSignature, 1, 1⟩ false rfcKey 500
      runtime := [none, some (passed .signing 300 none), some (passed .rejected 0 none)]
      contexts := Vector.replicate 4 none }
    s.rt 1 = some (passed .signing 300 none) ∧ s.runNumber = 1 ∧ s.pairOf 1 = some 0
      ∧ (s.pair 0).any (fun p => p.selected == some 1 && p.state == .tryingSecond) = true ∧ s.queue = [] := by decide +kernel

/-- A slot of the unfinished pair in progress, its pair on the queue. -/
theorem witness_DeadlineExpiryRejectsUnfinishedRequiredWork_slot :
    let s := { live .verifying [none, some ⟨.queued, none, none, 0, none, false, 1⟩] with deadline := some 5, queue := [.pair 0] }
    s.pairOf 1 = some 0 ∧ s.region 1 = some slotA ∧ slotA.role = some .required
      ∧ s.rt 1 = some ⟨.queued, none, none, 0, none, false, 1⟩
      ∧ ∀ o ∈ s.queue, 1 ∈ s.ownerRegions o → o = .pair 0 ∨ o = .region 1 := by decide +kernel
/-- Region 0 unfinished, region 3 VERIFIED, the pair unfinished. -/
theorem witness_DeadlineExpiryRejectsUnfinishedRequiredWork :
    let s := { live .verifying [some ⟨.queued, none, none, 0, none, false, 1⟩, none, none, some (passed .verified 300 none)] with
      deadline := some 5, queue := [.region 0] }
    s.deadline = some 5 ∧ s.region 0 = some boot ∧ boot.role = some .required ∧ s.pairOf 0 = none
      ∧ s.rt 0 = some ⟨.queued, none, none, 0, none, false, 1⟩
      ∧ (s.pair 0).any (fun p => s.pairRole p == some .required && p.state == .selecting) = true
      ∧ s.region 3 = some fonts ∧ fonts.role ≠ some .required ∧ s.permit = .verifying := by decide +kernel

theorem witness_OnlyAPassingCheckVerifiesARegion :
    (checkingPart false .signing).isVerified 3 = false
      ∧ (match step (checkingPart false .signing) with | .next t => t.isVerified 3 | _ => false) = true := by decide +kernel

/-! ## Witnesses: the permit controller -/

/-- The last check of the run decides it: with region 3 REQUIRED in place of the others, its PASS permits. -/
def lastCheck : State :=
  let r : Region := { fonts with role := some .required, policy := .locked }
  ({ checkingPart false .signing with regions := [boot, slotA, slotB, r], pairs := []
                                      runtime := [some (passed .verified 300 none), some (passed .verified 300 none),
                                        some (passed .verified 300 none), some (passed .signing 300 none)] } : State).drive

theorem witness_ThePrintPermitIsEarned :
    lastCheck.OutputsAgree ∧ lastCheck.pins.printPermit = false
      ∧ (match step lastCheck with | .next t => t.pins.printPermit | _ => false) = true := by
  unfold State.OutputsAgree
  decide +kernel
/-- The small part in PERMITTED rests on what `PermitSound` says. -/
theorem tables_small : (allPassed .permitted).TablesSound := by
  refine ⟨fun i r h h1 h2 => ?_, fun j p h => ?_⟩
  · match i, h with
    | 0, h => obtain rfl := Option.some.inj h; rfl
    | 1, _ => exact absurd h2 (by decide +kernel)
    | 2, _ => exact absurd h2 (by decide +kernel)
    | 3, h => obtain rfl := Option.some.inj h; exact absurd h1 (by decide)
    | 4, h => obtain rfl := Option.some.inj h; exact absurd h1 (by decide)
    | i + 5, h => exact absurd h (by simp [allPassed, State.region, live, State.modPair, table5, State.drive])
  · obtain rfl := pair_small (by decide +kernel) h
    obtain rfl := Option.some.inj h
    refine ⟨by decide, by decide, fun slot => ?_⟩
    cases slot
    · exact ⟨by decide +kernel, slotA, rfl, rfl, by decide⟩
    · exact ⟨by decide +kernel, slotB, rfl, rfl, by decide⟩
theorem witness_ThePrintPermitIsEarned_stands : agreeing.PermitSound ∧ agreeing.PortsAgree ∧ agreeing.permit = .permitted
    ∧ ∃ t, step agreeing = .next t := by
  refine ⟨⟨tables_small, ⟨by decide, fun o h => absurd h (by simp [agreeing, allPassed, live, State.modPair, State.drive, State.reset,
    State.afterReset])⟩, ⟨fun c z j h => ?_, fun c c' z z' j h => ?_⟩, fun x lo n h => (by cases h), fun _ => ⟨fun i r h h1 h2 => ?_, fun j p h _ => ?_⟩⟩,
    by unfold State.PortsAgree; decide +kernel, rfl, _, rfl⟩
  · have : ∀ c : Fin 4, agreeing.ctx c = none := by decide +kernel
    simp [this] at h
  · have : ∀ c : Fin 4, agreeing.ctx c = none := by decide +kernel
    simp [this] at h
  · match i, h with
    | 0, _ => decide +kernel
    | 1, _ => exact absurd h2 (by decide +kernel)
    | 2, _ => exact absurd h2 (by decide +kernel)
    | 3, h => obtain rfl := Option.some.inj h; exact absurd h1 (by decide)
    | 4, h => obtain rfl := Option.some.inj h; exact absurd h1 (by decide)
    | i + 5, h => exact absurd h (by simp [agreeing, allPassed, State.region, live, State.modPair, table5, State.drive])
  · obtain rfl := pair_small (by decide +kernel) h
    obtain rfl := Option.some.inj h
    exact ⟨rfl, 1, rfl, by decide +kernel⟩
theorem witness_ThePermitStateMovesAsItsTableSays :
    lastCheck.PortsAgree ∧ (match step lastCheck with | .next t => decide (lastCheck.permit ≠ t.permit) | _ => false) = true := by
  unfold State.PortsAgree
  decide +kernel
/-- The part of `lastCheck`, its check with another digest. -/
def lastFails : State := { lastCheck with sigUnit := .checking ⟨3, rfcDigest ^^^ 1, rfcSignature, 1, 1⟩ false rfcKey 500 }
/-- The last check ends the run, in PERMITTED or in DENIED. -/
theorem witness_ThePermitStateMovesAsItsTableSays_end :
    lastCheck.PortsAgree ∧ lastCheck.RunAgrees ∧ lastFails.RunAgrees ∧ lastCheck.permit = .verifying ∧ lastFails.permit = .verifying
      ∧ (match step lastCheck with | .next t => t.permit == .permitted | _ => false) = true
      ∧ (match step lastFails with | .next t => t.permit == .denied | _ => false) = true :=
  ⟨by unfold State.PortsAgree; decide +kernel, ⟨by decide +kernel, fun _ => ⟨_, rfl, rfl, by decide +kernel⟩, by decide +kernel⟩,
    ⟨by decide +kernel, fun _ => ⟨_, rfl, rfl, by decide +kernel⟩, by decide +kernel⟩, by decide +kernel⟩
/-- In `lastCheck` no decision is due before the check completes. -/
theorem witness_ThePrintPermitIsEarned_due : lastCheck.DecisionMade ∧ lastCheck.permit = .verifying ∧ ∃ t, step lastCheck = .next t := by
  refine ⟨fun _ => ⟨fun h => absurd (h.1 3 _ rfl rfl rfl) (by decide +kernel), ?_⟩, rfl, _, rfl⟩
  rintro (⟨i, r, h, -, -, h'⟩ | ⟨j, p, h, -⟩)
  · revert h'
    match i, h with
    | 0, _ | 1, _ | 2, _ | 3, _ => decide +kernel
  · cases h
/-- A RESTART in PERMITTED. -/
theorem witness_ThePermitStateMovesAsItsTableSays_restart :
    (allPassed .permitted).Listening ∧ (allPassed .permitted).permit ≠ .verifying := ⟨⟨rfl, rfl⟩, by decide⟩

theorem witness_ThePermitAndHoldConditions :
    State.reset.permit = .loading ∧ (live .verifying []).permit = .verifying ∧ (live .permitted []).permit = .permitted
      ∧ (live .denied []).permit = .denied := by decide

/-- The part of `lastCheck` is in VERIFYING with CTRL_HOLD_N released: region 0, of gate HOLD, is VERIFIED. -/
theorem witness_TheHoldLineIsReleasedOnlyOnceTheHeldImagesPass :
    lastCheck.OutputsAgree ∧ lastCheck.permit = .verifying ∧ lastCheck.pins.ctrlHold = false ∧ lastCheck.region 0 = some boot
      ∧ boot.role = some .required ∧ lastCheck.GateIs 0 boot .hold ∧ lastCheck.pairOf 0 = none := by
  rw [← effectiveGate_iff]
  unfold State.OutputsAgree
  decide +kernel

theorem witness_TheHoldPulseEnds :
    let s := ({ allPassed .permitted with pulse := .running 3 } : State).drive
    s.pulse = .running 3 ∧ s.OutputsAgree := by
  unfold State.OutputsAgree
  decide +kernel

/-- A RESTART out of PERMITTED asserts a released CTRL_HOLD_N. -/
theorem witness_EveryAssertionOfTheHoldLineLastsAPulse :
    let s := ({ allPassed .permitted with pending := [.restart] } : State)
    s.OutputsAgree ∧ s.PortsAgree ∧ s.pins.ctrlHold = false
      ∧ (match step s with | .next t => t.pins.ctrlHold | _ => false) = true := by
  unfold State.OutputsAgree State.PortsAgree
  decide +kernel

/-! ## Witnesses: the flash port and the key store -/

/-- The part, its flash held by an own instruction. -/
def owning (op : OwnOp) : State :=
  let s := live .permitted []
  { s with fp := { s.fp with holder := .own op, select := true } }

theorem witness_OwnInstructionsAndWaitsComplete :
    (owning .writeDisable).fp.holder = .own .writeDisable ∧ (owning .sleep).fp.holder = .own .sleep
      ∧ (owning (.wake true)).fp.holder = .own (.wake true) ∧ (owning .poll).fp.holder = .own .poll
      ∧ ({ State.reset.fp with wakeWait := some 5 } : FlashPort).wakeWait = some 5
      ∧ ({ State.reset.fp with pollWait := some 5 } : FlashPort).pollWait = some 5 := by decide

/-- A FREE flash with the given shadow, in a running permit state, and one context that gathers a manifest if asked. -/
def due (sh : Shadow) (gathers : Bool) : State :=
  let s := live .verifying []
  { s with
    fp := { s.fp with shadow := sh }
    contexts := #v[none, if gathers then some (gatheringCtx 10) else none, none, none] }

theorem witness_TheArbiterIssuesWhatIsDue :
    ((due ⟨.set, .idle, .awake, false, true⟩ false).fp.holder = .free
        ∧ (due ⟨.set, .idle, .awake, false, true⟩ false).permit.running = true
        ∧ (due ⟨.set, .idle, .awake, false, true⟩ false).fp.shadow.wdPending = true)
      ∧ (∃ c : Fin 4, (due ⟨.clear, .idle, .asleep, false, false⟩ true).needsBytes c = true)
      ∧ (due ⟨.clear, .idle, .asleep, false, false⟩ true).fp.wakeWait = none
      ∧ (∃ c : Fin 4, (due ⟨.clear, .busy, .awake, false, false⟩ true).needsBytes c = true)
      ∧ (due ⟨.clear, .idle, .awake, false, false⟩ true).needsBytes 1 = true
      ∧ (∀ d : Fin 4, (d - (due ⟨.clear, .idle, .awake, false, false⟩ true).fp.lastServed - 1).val
            < ((1 : Fin 4) - (due ⟨.clear, .idle, .awake, false, false⟩ true).fp.lastServed - 1).val →
          (due ⟨.clear, .idle, .awake, false, false⟩ true).needsBytes d = false)
      ∧ (let s := due ⟨.clear, .idle, .awake, true, false⟩ false
         s.fp.shadow.sleepPending = true ∧ s.queue = [] ∧ (∀ c : Fin 4, s.ctx c = none) ∧ ¬ ∃ c : Fin 4, s.needsBytes c = true) := by
  decide +kernel

theorem witness_TheArbiterIssuesWhatIsDue_nothing :
    (let s := due ⟨.clear, .idle, .asleep, false, false⟩ true
     ({ s with fp := { s.fp with wakeWait := some 5 } } : State).fp.wakeWait ≠ none)
      ∧ (let s := due ⟨.clear, .busy, .awake, false, false⟩ true
         ({ s with fp := { s.fp with pollWait := some 5 } } : State).fp.pollWait ≠ none)
      ∧ (let s := due ⟨.clear, .idle, .awake, false, false⟩ false
         s.fp.shadow.wdPending = false ∧ s.fp.shadow.sleepPending = false ∧ ¬ ∃ c : Fin 4, s.needsBytes c = true)
      ∧ (owning .poll).fp.holder ≠ .free ∧ State.reset.permit.running = false := by decide +kernel

/-- Both forms of a burst's length: what is left of a manifest, 70 bytes, and of a payload, the burst size of 256 bytes. -/
theorem witness_TheArbiterIssuesWhatIsDue_length :
    (gatheringCtx 10).phase = .header ∧ (gatheringCtx 10).store = [] ++ ⟨0, List.replicate 10 0x55⟩ :: []
      ∧ (List.replicate 10 (0x55 : Byte)).length < 80 ∧ 70 = min (256 * 2 ^ smallCfg.burstExp) (80 - 10)
      ∧ (nearlyDone (.region 1) .failed .stale).needsBytes 2 = true ∧ (hashingCtx (.region 1) 1 [1, 2, 3] []).phase = .payload
      ∧ 256 = min (256 * 2 ^ smallCfg.burstExp) (hashingCtx (.region 1) 1 [1, 2, 3] []).wanted := by decide +kernel

theorem witness_BurnsComplete :
    (burningPart (.floor 2 9)).keys.burn = some ⟨.floor 2 9, 100⟩ ∧ (burningPart (.floor 2 9)).store.floors[(2 : Fin 8)].getLsbD 0 = false
      ∧ (∀ q : Fin 63, q < 0 → (burningPart (.floor 2 9)).store.floors[(2 : Fin 8)].getLsbD q = true)
      ∧ (burningPart (.revoke 1)).keys.burn = some ⟨.revoke 1, 100⟩ :=
  ⟨rfl, by decide, fun q h => absurd h (by simp), rfl⟩

end Sys2Proof.Tests
end

section
/-! PROOFS. The records that the agreements of regions, runtime records and windows read, and what the verifier's primitive updates do to
them: the rules through which the proofs of the step invariants go. -/

namespace Sys2Proof.Machine

/-! ## The tables: the records the agreements read, besides the permit state -/

/-- The records that `RecordsProper`, `WindowsAgree` and `SwapStands` read, besides the permit state. -/
structure Tables where
  regions      : List Region
  bootWindow   : Option Nat
  pairs        : List Pair
  runtime      : List (Option Runtime)
  trans        : List Window
  recoverySwap : Bool

/-- The tables of a state. -/
def State.tables (s : State) : Tables := ⟨s.regions, s.cfg.bootWindow, s.pairs, s.runtime, s.trans, s.recoverySwap⟩

theorem tables_eq_iff {s t : State} : t.tables = s.tables ↔ t.regions = s.regions ∧ t.cfg.bootWindow = s.cfg.bootWindow
    ∧ t.pairs = s.pairs ∧ t.runtime = s.runtime ∧ t.trans = s.trans ∧ t.recoverySwap = s.recoverySwap := by
  simp [State.tables]

theorem region_congr {s t : State} (h : t.regions = s.regions) (i : Nat) : t.region i = s.region i := by
  simp [State.region, h]

theorem rt_congr {s t : State} (h : t.runtime = s.runtime) (i : Nat) : t.rt i = s.rt i := by
  simp [State.rt, h]

theorem pair_congr {s t : State} (h : t.pairs = s.pairs) (j : Nat) : t.pair j = s.pair j := by
  simp [State.pair, h]

theorem isVerified_iff (s : State) (i : Nat) : s.isVerified i = true ↔ ∃ t, s.rt i = some t ∧ t.state = .verified := by
  simp [State.isVerified, State.rstate]

theorem rstate_eq_some_iff {s : State} {i : Nat} {x : RState} : s.rstate i = some x ↔ ∃ t, s.rt i = some t ∧ t.state = x := by
  simp [State.rstate]

/-- The region the recovery search finds is in the table. -/
theorem recoveryRegion_region {s : State} {k : Nat} (h : s.recoveryRegion = some k) : ∃ r, s.region k = some r := by
  obtain ⟨hlt, -, -⟩ := List.findIdx?_eq_some_iff_getElem.mp h
  exact ⟨s.regions[k], by simp [State.region, hlt]⟩

/-- A pair owns the boot window when it is one of the pair's two slots. -/
theorem ownsBoot_iff (s : State) (p : Pair) :
    s.ownsBoot p = true ↔ ∃ b, s.cfg.bootWindow = some b ∧ (p.home = b ∨ p.alternate = b) := by
  have hslot : ∀ b, (p.slotOf b).isSome = true ↔ p.home = b ∨ p.alternate = b := by
    intro b
    by_cases hh : p.home = b
    · simp [Pair.slotOf, hh]
    · by_cases ha : p.alternate = b <;> simp [Pair.slotOf, hh, ha]
  simp [State.ownsBoot, Option.any_eq_true, hslot]

/-! ## The agreements depend on the tables alone -/

theorem recordsProper_of_tables {s t : State} (h : t.tables = s.tables) (hs : s.RecordsProper) : t.RecordsProper := by
  obtain ⟨hreg, -, -, hrt, -, -⟩ := tables_eq_iff.mp h
  intro i r hi
  rw [rt_congr hrt] at hi
  rw [region_congr hreg]
  exact hs i r hi

/-- The windows agree, whatever else changes, when the list, its flag, the regions and the boot window stay and every pair keeps its
slots and its selection. -/
theorem windowsAgree_of_slots {s t : State} (hreg : t.regions = s.regions) (hboot : t.cfg.bootWindow = s.cfg.bootWindow)
    (htrans : t.trans = s.trans) (hswap : t.recoverySwap = s.recoverySwap)
    (hpair : ∀ j p, t.pair j = some p →
      ∃ q, s.pair j = some q ∧ p.home = q.home ∧ p.alternate = q.alternate ∧ p.selection = q.selection)
    (hs : s.WindowsAgree) : t.WindowsAgree := by
  obtain ⟨hsorted, hflag, hpairs⟩ := hs
  refine ⟨htrans ▸ hsorted, by rw [hswap, htrans, hflag], fun j p hp => ?_⟩
  obtain ⟨q, hq, hhome, halt, hsel⟩ := hpair j p hp
  have hswapOf : t.swapOf j p = s.swapOf j q := by
    simp only [State.swapOf, hhome, halt, hsel, region_congr hreg]
  have howns : t.ownsBoot p = s.ownsBoot q := by
    simp only [State.ownsBoot, Pair.slotOf, hhome, halt, hboot]
  rw [htrans, hswapOf, howns]
  exact hpairs j q hq

theorem windowsAgree_of_tables {s t : State} (h : t.tables = s.tables) (hs : s.WindowsAgree) : t.WindowsAgree := by
  obtain ⟨hreg, hboot, hpairs, -, htrans, hswap⟩ := tables_eq_iff.mp h
  exact windowsAgree_of_slots hreg hboot htrans hswap (fun j p hp => ⟨p, pair_congr hpairs j ▸ hp, rfl, rfl, rfl⟩) hs

/-- The recovery swap still stands when nothing it is asked for by has come about, and it has not gone. -/
theorem swapStands_of_frame {s t : State} (hreg : t.regions = s.regions) (hboot : t.cfg.bootWindow = s.cfg.bootWindow)
    (hswap : t.recoverySwap = s.recoverySwap) (hpermit : t.permit = .denied → s.permit = .denied)
    (hverified : ∀ k, t.isVerified k = true → s.isVerified k = true) (hs : s.SwapStands) : t.SwapStands := by
  intro hd k hk hv hb
  have hrec : t.recoveryRegion = s.recoveryRegion := by simp [State.recoveryRegion, hreg]
  rw [hswap]
  refine hs (hpermit hd) k (hrec ▸ hk) (hverified k hv) ?_
  simpa only [hboot, region_congr hreg] using hb

/-! ## What an operation of the verifier keeps -/

/-- From `s` to `t` the records keep their form, the windows their agreement, and no recovery swap joins. -/
structure Forms (s t : State) : Prop where
  records : s.RecordsProper → t.RecordsProper
  windows : s.WindowsAgree → t.WindowsAgree
  swapOff : s.recoverySwap = false → t.recoverySwap = false

/-- From `s` to `t` the forms are kept, and the recovery swap stands if it stood. -/
structure Follows (s t : State) : Prop extends Forms s t where
  stands : s.SwapStands → t.SwapStands

theorem Forms.refl (s : State) : Forms s s := ⟨id, id, id⟩

theorem Forms.trans {s t u : State} (h : Forms s t) (h' : Forms t u) : Forms s u :=
  ⟨h'.records ∘ h.records, h'.windows ∘ h.windows, h'.swapOff ∘ h.swapOff⟩

theorem Follows.refl (s : State) : Follows s s := ⟨Forms.refl s, id⟩

theorem Follows.trans {s t u : State} (h : Follows s t) (h' : Follows t u) : Follows s u :=
  ⟨h.toForms.trans h'.toForms, h'.stands ∘ h.stands⟩

/-- What leaves the tables, and does not enter DENIED, keeps everything. -/
theorem follows_of_tables {s t : State} (h : t.tables = s.tables) (hpermit : t.permit = .denied → s.permit = .denied) : Follows s t := by
  obtain ⟨hreg, hboot, -, hrt, -, hswap⟩ := tables_eq_iff.mp h
  refine ⟨⟨recordsProper_of_tables h, windowsAgree_of_tables h, fun hs => hswap ▸ hs⟩,
    swapStands_of_frame hreg hboot hswap hpermit fun k hk => ?_⟩
  simpa only [State.isVerified, State.rstate, rt_congr hrt] using hk

/-- What leaves the tables and the permit state keeps everything. -/
theorem follows_of_same {s t : State} (h : t.tables = s.tables) (hpermit : t.permit = s.permit) : Follows s t :=
  follows_of_tables h fun hd => hpermit ▸ hd

/-- A fold of operations that each keep everything does. -/
theorem foldl_follows {α : Type} {f : State → α → State} (h : ∀ s a, Follows s (f s a)) (l : List α) (s : State) :
    Follows s (l.foldl f s) := by
  induction l generalizing s with
  | nil => exact Follows.refl s
  | cons a l ih => exact (h s a).trans (ih (f s a))

/-! ## Runtime records -/

theorem rt_modRt (s : State) (i k : Nat) (f : Runtime → Runtime) : (s.modRt i f).rt k = if k = i then (s.rt k).map f else s.rt k := by
  unfold State.rt
  simp only [State.modRt_runtime, List.getElem?_modify]
  by_cases hk : k = i
  · subst hk
    cases h : s.runtime[k]? <;> simp
  · simp [hk, Ne.symm hk]

theorem modRt_modRt (s : State) (i : Nat) (f g : Runtime → Runtime) : (s.modRt i f).modRt i g = s.modRt i (g ∘ f) := by
  simp [State.modRt, List.modify_modify_eq, Function.comp_def]

theorem ctx_setCtx_self (s : State) (c : Fin 4) (x : Option Ctx) : (s.setCtx c x).ctx c = x := by
  simp [State.ctx, State.setCtx]

theorem rt_releaseCtx (s : State) (c : Fin 4) (k : Nat) :
    (s.releaseCtx c).rt k = (s.rt k).map fun r => if r.context = some c then { r with context := none } else r := by
  unfold State.rt
  cases h : s.runtime[k]? <;> simp [h]

/-- A record that loses its context keeps its form. -/
theorem Runtime.Proper.noContext {len : Nat} {r : Runtime} (h : r.Proper len) : ({ r with context := none } : Runtime).Proper len := by
  obtain ⟨hreason, -, hrecorded⟩ := h
  exact ⟨hreason, by simp, hrecorded⟩

/-- A record that goes STALE keeps its form. -/
theorem Runtime.Proper.markStale {len : Nat} {r : Runtime} (h : r.Proper len) : r.markStale.Proper len := by
  obtain ⟨-, -, hrecorded⟩ := h
  refine ⟨by simp [Runtime.markStale], by simp [Runtime.markStale], fun m hm => ?_⟩
  obtain ⟨h1, h2, h3, h4, -⟩ := hrecorded m hm
  exact ⟨h1, h2, h3, h4, by simp [Runtime.markStale]⟩

/-- A record that is rejected keeps its form. -/
theorem Runtime.Proper.reject {len : Nat} {r : Runtime} (reason : Reason) (h : r.Proper len) : (r.reject reason).Proper len := by
  obtain ⟨-, -, hrecorded⟩ := h
  refine ⟨by simp [Runtime.reject], by simp [Runtime.reject], fun m hm => ?_⟩
  obtain ⟨h1, h2, h3, h4, -⟩ := hrecorded m hm
  exact ⟨h1, h2, h3, h4, by simp [Runtime.reject]⟩

/-- The record of a new attempt has its form. -/
theorem Runtime.fresh_proper (len : Nat) (tag : BitVec 16) : (Runtime.fresh tag .queued).Proper len := by
  simp [Runtime.Proper, Runtime.fresh]

/-- Rewriting a record in its form keeps the forms. -/
theorem modRt_forms {s : State} {i : Nat} {f : Runtime → Runtime}
    (h : ∀ r t, s.region i = some r → s.rt i = some t → t.Proper r.length → (f t).Proper r.length) : Forms s (s.modRt i f) := by
  refine ⟨fun hs k t hk => ?_, windowsAgree_of_slots rfl rfl rfl rfl fun j p hp => ⟨p, hp, rfl, rfl, rfl⟩, id⟩
  rw [rt_modRt] at hk
  split at hk
  · rename_i hki
    subst hki
    obtain ⟨u, hu, rfl⟩ := Option.map_eq_some_iff.mp hk
    obtain ⟨r, hr, hproper⟩ := hs k u hu
    exact ⟨r, hr, h r u hr hu hproper⟩
  · exact hs k t hk

/-- Rewriting a record in its form, but not to VERIFIED, keeps everything. -/
theorem modRt_follows {s : State} {i : Nat} {f : Runtime → Runtime}
    (h : ∀ r t, s.region i = some r → s.rt i = some t → t.Proper r.length → (f t).Proper r.length)
    (hv : ∀ t, s.rt i = some t → (f t).state = .verified → t.state = .verified) : Follows s (s.modRt i f) := by
  refine ⟨modRt_forms h, swapStands_of_frame rfl rfl rfl id fun k hk => ?_⟩
  obtain ⟨t, ht, hstate⟩ := (isVerified_iff _ k).mp hk
  refine (isVerified_iff s k).mpr ?_
  rw [rt_modRt] at ht
  split at ht
  · rename_i hki
    subst hki
    obtain ⟨u, hu, rfl⟩ := Option.map_eq_some_iff.mp ht
    exact ⟨u, hu, hv u hu hstate⟩
  · exact ⟨t, ht, hstate⟩

theorem reject_follows (s : State) (i : Nat) (reason : Reason) : Follows s (s.modRt i (Runtime.reject reason)) :=
  modRt_follows (fun _ _ _ _ h => h.reject reason) fun _ _ h => by simp [Runtime.reject] at h

theorem markStale_follows (s : State) (i : Nat) : Follows s (s.modRt i Runtime.markStale) :=
  modRt_follows (fun _ _ _ _ h => h.markStale) fun _ _ h => by simp [Runtime.markStale] at h

theorem releaseCtx_follows (s : State) (c : Fin 4) : Follows s (s.releaseCtx c) := by
  refine ⟨⟨fun hs k t hk => ?_, windowsAgree_of_slots rfl rfl rfl rfl fun j p hp => ⟨p, hp, rfl, rfl, rfl⟩, id⟩,
    swapStands_of_frame rfl rfl rfl id fun k hk => ?_⟩
  · rw [rt_releaseCtx] at hk
    obtain ⟨u, hu, rfl⟩ := Option.map_eq_some_iff.mp hk
    obtain ⟨r, hr, hproper⟩ := hs k u hu
    refine ⟨r, hr, ?_⟩
    split
    · exact hproper.noContext
    · exact hproper
  · obtain ⟨t, ht, hstate⟩ := (isVerified_iff _ k).mp hk
    rw [rt_releaseCtx] at ht
    obtain ⟨u, hu, rfl⟩ := Option.map_eq_some_iff.mp ht
    refine (isVerified_iff s k).mpr ⟨u, hu, ?_⟩
    split at hstate <;> exact hstate

theorem releaseOwner_follows (s : State) (o : Owner) : Follows s (s.releaseOwner o) := by
  unfold State.releaseOwner
  split
  · exact releaseCtx_follows s _
  · exact Follows.refl s

theorem setCtx_follows (s : State) (c : Fin 4) (x : Option Ctx) : Follows s (s.setCtx c x) := follows_of_same rfl rfl

theorem withdraw_follows (s : State) (i : Nat) : Follows s (s.withdraw i) := follows_of_same rfl rfl

/-! ## Pair records and windows -/

theorem pair_modPair (s : State) (j k : Nat) (f : Pair → Pair) :
    (s.modPair j f).pair k = if k = j then (s.pair k).map f else s.pair k := by
  unfold State.pair
  simp only [State.modPair_pairs, List.getElem?_modify]
  by_cases hk : k = j
  · simp [hk]
  · simp [hk, Ne.symm hk]

/-- Rewriting a pair record keeps everything, if the pair keeps its slots and its selection. -/
theorem modPair_follows {s : State} {j : Nat} {f : Pair → Pair}
    (h : ∀ p, (f p).home = p.home ∧ (f p).alternate = p.alternate ∧ (f p).selection = p.selection) : Follows s (s.modPair j f) := by
  refine ⟨⟨id, windowsAgree_of_slots rfl rfl rfl rfl fun k p hp => ?_, id⟩, swapStands_of_frame rfl rfl rfl id fun _ => id⟩
  rw [pair_modPair] at hp
  split at hp
  · obtain ⟨q, hq, rfl⟩ := Option.map_eq_some_iff.mp hp
    exact ⟨q, hq, h q⟩
  · exact ⟨p, hp, rfl, rfl, rfl⟩

theorem modPair_state_follows (s : State) (j : Nat) (st : PairState) : Follows s (s.modPair j fun p => { p with state := st }) :=
  modPair_follows fun _ => ⟨rfl, rfl, rfl⟩

theorem modPair_order_follows (s : State) (j : Nat) (order : Pair → List Slot) :
    Follows s (s.modPair j fun p => { p with order := order p }) :=
  modPair_follows fun _ => ⟨rfl, rfl, rfl⟩

theorem modPair_escalated_follows (s : State) (j : Nat) : Follows s (s.modPair j fun p => { p with escalated := true }) :=
  modPair_follows fun _ => ⟨rfl, rfl, rfl⟩

theorem recoveryPresent_perm {vs ws : List Window} (h : vs.Perm ws) : recoveryPresent vs = recoveryPresent ws := h.any_eq

theorem recoveryPresent_dropPair (j : Nat) (ws : List Window) : recoveryPresent (dropPair j ws) = recoveryPresent ws := by
  induction ws with
  | nil => rfl
  | cons w ws ih =>
    simp only [recoveryPresent, dropPair, List.any_cons, List.filter_cons] at ih ⊢
    split
    · rw [List.any_cons, ih]
    · rename_i h
      cases hc : w.cause <;> simp_all

theorem recoveryPresent_installSwap (a b len : Nat) (cause : WindowCause) (owner : Option Nat) (ws : List Window) :
    recoveryPresent (installSwap a b len cause owner ws) = (cause == .recovery || recoveryPresent ws) := by
  rw [recoveryPresent_perm (installSwap_perm a b len cause owner ws)]
  simp only [recoveryPresent, List.any_cons]
  cases cause == WindowCause.recovery <;> simp

/-- Dropping a pair's entries takes all of that pair and none of another. -/
theorem filter_ofPair_dropPair (j k : Nat) (ws : List Window) :
    (dropPair j ws).filter (Window.ofPair k) = if k = j then [] else ws.filter (Window.ofPair k) := by
  have hdrop : dropPair j ws = ws.filter fun w => !(Window.ofPair j w) := rfl
  rw [hdrop, List.filter_filter]
  split
  · rename_i hkj
    simp [hkj]
  · rename_i hkj
    refine List.filter_congr fun w _ => ?_
    have hother : w.ofPair k = true → w.ofPair j = false := by
      simp only [Window.ofPair, Bool.and_eq_true, beq_iff_eq, Bool.and_eq_false_iff]
      rintro ⟨-, ho⟩
      right
      simpa [ho] using hkj
    cases hk : w.ofPair k
    · rfl
    · simp [hother hk]

/-- Of pair `k`, the list of a swap of pair `j` holds the two entries if it is that pair, and what the list held. -/
theorem filter_ofPair_installSwap (a b len j k : Nat) (ws : List Window) :
    ((installSwap a b len .pair (some j) ws).filter (Window.ofPair k)).Perm
      ((if k = j then [⟨a, b, len, .pair, some j⟩, ⟨b, a, len, .pair, some j⟩] else []) ++ ws.filter (Window.ofPair k)) := by
  refine ((installSwap_perm a b len .pair (some j) ws).filter _).trans (List.Perm.of_eq ?_)
  by_cases hkj : k = j
  · simp [Window.ofPair, hkj]
  · simp [Window.ofPair, hkj, Ne.symm hkj]

/-- What the window unit does on a change of selection (R9, R10): a pair displaced by the recovery swap leaves the list, ALTERNATE
replaces the pair's entries by its swap, and what asks for no entry drops them. -/
theorem windowsFor_cases (s : State) (j : Nat) (p : Pair) (sel : Selection) :
    ((recoveryPresent s.trans && s.ownsBoot p) = true ∧ s.windowsFor j p sel = s.trans)
      ∨ ((recoveryPresent s.trans && s.ownsBoot p) = false
          ∧ ∃ h a : Region, s.swapOf j { p with selection := sel }
                = [⟨h.base, a.base, h.length, .pair, some j⟩, ⟨a.base, h.base, h.length, .pair, some j⟩]
              ∧ s.windowsFor j p sel = installSwap h.base a.base h.length .pair (some j) (dropPair j s.trans))
      ∨ (s.swapOf j { p with selection := sel } = [] ∧ s.windowsFor j p sel = dropPair j s.trans) := by
  cases sel with
  | none => exact .inr (.inr ⟨by simp only [State.swapOf], by simp only [State.windowsFor]⟩)
  | home => exact .inr (.inr ⟨by simp only [State.swapOf], by simp only [State.windowsFor]⟩)
  | alternate =>
    cases hh : s.region p.home with
    | none => exact .inr (.inr ⟨by simp only [State.swapOf, hh], by simp only [State.windowsFor, hh]⟩)
    | some h =>
      cases ha : s.region p.alternate with
      | none => exact .inr (.inr ⟨by simp only [State.swapOf, hh, ha], by simp only [State.windowsFor, hh, ha]⟩)
      | some a =>
        cases hd : recoveryPresent s.trans && s.ownsBoot p with
        | true => exact .inl ⟨rfl, by simp only [State.windowsFor, hh, ha, hd, if_true]⟩
        | false =>
          exact .inr (.inl ⟨rfl, h, a, by simp only [State.swapOf, hh, ha],
            by simp only [State.windowsFor, hh, ha, hd, Bool.false_eq_true, if_false]⟩)

theorem windowsFor_sorted {s : State} (j : Nat) (p : Pair) (sel : Selection) (h : s.trans.Pairwise (fun v w => v.from_ ≤ w.from_)) :
    (s.windowsFor j p sel).Pairwise (fun v w => v.from_ ≤ w.from_) := by
  obtain ⟨-, he⟩ | ⟨-, _, _, -, he⟩ | ⟨-, he⟩ := windowsFor_cases s j p sel <;> rw [he]
  · exact h
  · exact installSwap_sorted _ _ _ _ _ _ (dropPair_sorted j _ h)
  · exact dropPair_sorted j _ h

theorem recoveryPresent_windowsFor (s : State) (j : Nat) (p : Pair) (sel : Selection) :
    recoveryPresent (s.windowsFor j p sel) = recoveryPresent s.trans := by
  obtain ⟨-, he⟩ | ⟨-, _, _, -, he⟩ | ⟨-, he⟩ := windowsFor_cases s j p sel <;> rw [he]
  · rw [recoveryPresent_installSwap, recoveryPresent_dropPair]; rfl
  · exact recoveryPresent_dropPair j _

/-- The entries of the pair whose selection changes are then those asked for, if those of a displaced pair were gone. -/
theorem filter_ofPair_windowsFor_self {s : State} {j : Nat} {p : Pair} (sel : Selection)
    (h : (recoveryPresent s.trans && s.ownsBoot p) = true → s.trans.filter (Window.ofPair j) = []) :
    ((s.windowsFor j p sel).filter (Window.ofPair j)).Perm
      (if recoveryPresent s.trans && s.ownsBoot p then [] else s.swapOf j { p with selection := sel }) := by
  have hdrop := filter_ofPair_dropPair j j s.trans
  rw [if_pos rfl] at hdrop
  obtain ⟨hd, he⟩ | ⟨hd, rh, ra, hswap, he⟩ | ⟨hswap, he⟩ := windowsFor_cases s j p sel <;> rw [he]
  · rw [h hd, if_pos hd]
  · have hperm := filter_ofPair_installSwap rh.base ra.base rh.length j j (dropPair j s.trans)
    rw [hdrop, if_pos rfl, List.append_nil] at hperm
    rwa [hd, if_neg Bool.false_ne_true, hswap]
  · rw [hdrop, hswap, ite_self]

/-- The entries of another pair stay. -/
theorem filter_ofPair_windowsFor_other {s : State} {j k : Nat} (p : Pair) (sel : Selection) (h : k ≠ j) :
    ((s.windowsFor j p sel).filter (Window.ofPair k)).Perm (s.trans.filter (Window.ofPair k)) := by
  have hdrop := filter_ofPair_dropPair j k s.trans
  rw [if_neg h] at hdrop
  obtain ⟨-, he⟩ | ⟨-, rh, ra, -, he⟩ | ⟨-, he⟩ := windowsFor_cases s j p sel <;> rw [he]
  · have hperm := filter_ofPair_installSwap rh.base ra.base rh.length j k (dropPair j s.trans)
    rwa [hdrop, if_neg h, List.nil_append] at hperm
  · rw [hdrop]

/-- A change of a pair's selection changes its record and the list. -/
theorem setSelection_of_pair {s : State} {j : Nat} {p : Pair} (sel : Selection) (h : s.pair j = some p) :
    s.setSelection j sel = { (s.modPair j fun p => { p with selection := sel }) with trans := s.windowsFor j p sel } := by
  simp [State.setSelection, h]

theorem setSelection_eq (s : State) (j : Nat) (sel : Selection) :
    s.setSelection j sel = { s with pairs := (s.setSelection j sel).pairs, trans := (s.setSelection j sel).trans } := by
  unfold State.setSelection
  split <;> rfl

theorem setSelection_windowsAgree {s : State} (j : Nat) (sel : Selection) (hs : s.WindowsAgree) :
    (s.setSelection j sel).WindowsAgree := by
  cases hp : s.pair j with
  | none => simpa [State.setSelection, hp] using hs
  | some p =>
    obtain ⟨hsorted, hflag, hpairs⟩ := hs
    rw [setSelection_of_pair sel hp]
    refine ⟨windowsFor_sorted j p sel hsorted, hflag.trans (recoveryPresent_windowsFor s j p sel).symm, fun k q hq => ?_⟩
    show ((s.windowsFor j p sel).filter _).Perm (if recoveryPresent (s.windowsFor j p sel) && s.ownsBoot q then [] else s.swapOf k q)
    rw [recoveryPresent_windowsFor]
    replace hq : (s.modPair j fun p => { p with selection := sel }).pair k = some q := hq
    rw [pair_modPair] at hq
    split at hq
    · rename_i hkj
      subst hkj
      obtain rfl : { p with selection := sel } = q := by simpa [hp] using hq
      refine filter_ofPair_windowsFor_self sel fun hd => ?_
      have hgone := hpairs k p hp
      rwa [if_pos hd, List.perm_nil] at hgone
    · rename_i hkj
      exact (filter_ofPair_windowsFor_other p sel hkj).trans (hpairs k q hq)

theorem setSelection_follows (s : State) (j : Nat) (sel : Selection) : Follows s (s.setSelection j sel) := by
  have he := setSelection_eq s j sel
  have hrt : (s.setSelection j sel).runtime = s.runtime := by rw [he]
  have hreg : (s.setSelection j sel).regions = s.regions := by rw [he]
  refine ⟨⟨fun hs i t hi => ?_, setSelection_windowsAgree j sel, fun h => by rw [he]; exact h⟩,
    swapStands_of_frame hreg (by rw [he]) (by rw [he]) (fun h => by rw [he] at h; exact h) fun k hk => ?_⟩
  · rw [rt_congr hrt] at hi
    rw [region_congr hreg]
    exact hs i t hi
  · simpa only [State.isVerified, State.rstate, rt_congr hrt] using hk

end Sys2Proof.Machine
end

section
/-! PROOFS. The operations of the verifier keep the records' form, the windows' agreement and the recovery swap (R2, R9, R159): one lemma
an operation, in the order of Machine/Verifier.lean. A verdict is the one operation after which the recovery swap may have to join. -/

namespace Sys2Proof.Machine

/-! ## Digests -/

/-- A record that is not REJECTED has no reason. -/
theorem Runtime.Proper.reason_none {len : Nat} {t : Runtime} (h : t.Proper len) (hs : t.state ≠ .rejected) : t.reason = none := by
  obtain ⟨hreason, -, -⟩ := h
  simpa using mt hreason.mp hs

/-- A record in HEADER that enters HASHING keeps its form. -/
theorem Runtime.Proper.beginHashing {len : Nat} {t : Runtime} (h : t.Proper len) (hs : t.state = .header) (c : Fin 4) :
    ({ t with state := .hashing, progress := 0, context := some c } : Runtime).Proper len := by
  have hnone := h.reason_none (by simp [hs])
  obtain ⟨-, -, hrecorded⟩ := h
  refine ⟨by simp [hnone], by simp, fun m hm => ?_⟩
  obtain ⟨h1, h2, h3, h4, -⟩ := hrecorded m hm
  exact ⟨h1, h2, h3, h4, fun _ => h1⟩

/-- A record in HASHING whose digest is complete keeps its form in SIGNING. -/
theorem Runtime.Proper.sign {len : Nat} {t : Runtime} (h : t.Proper len) (hs : t.state = .hashing) (n : Nat) (o : Bool) :
    ({ t with state := .signing, context := none, progress := n, observed := o } : Runtime).Proper len := by
  have hnone := h.reason_none (by simp [hs])
  obtain ⟨-, -, hrecorded⟩ := h
  refine ⟨by simp [hnone], by simp, fun m hm => ?_⟩
  obtain ⟨h1, h2, h3, h4, -⟩ := hrecorded m hm
  exact ⟨h1, h2, h3, h4, by simp⟩

/-- A record in HASHING keeps its form with a byte more that is not its last. -/
theorem Runtime.Proper.absorb {len : Nat} {t : Runtime} (h : t.Proper len) (hs : t.state = .hashing)
    (hn : t.progress + 1 ≠ (t.recorded.map Recorded.signedLength).getD 0) (o : Bool) :
    ({ t with progress := t.progress + 1, observed := o } : Runtime).Proper len := by
  obtain ⟨hreason, hcontext, hrecorded⟩ := h
  refine ⟨hreason, hcontext, fun m hm => ?_⟩
  obtain ⟨h1, h2, h3, h4, h5⟩ := hrecorded m hm
  refine ⟨h1, h2, h3, h4, fun _ => lt_of_le_of_ne (h5 hs) ?_⟩
  simpa [show t.recorded = some m from hm] using hn

theorem beginDigest_follows {s : State} (c : Fin 4) {i : Nat} (h : s.rstate i = some .header) : Follows s (s.beginDigest c i) := by
  obtain ⟨u, hu, hstate⟩ := rstate_eq_some_iff.mp h
  unfold State.beginDigest
  split
  · refine (setCtx_follows s c _).trans (modRt_follows (fun r t _ ht hp => hp.beginHashing ?_ c) (by simp))
    obtain rfl : u = t := Option.some.inj (hu.symm.trans ht)
    exact hstate
  · exact Follows.refl s

/-! ## The pair selection procedure -/

theorem failPair_follows (s : State) (j : Nat) : Follows s (s.failPair j) :=
  ((setSelection_follows s j .none).trans (modPair_state_follows _ j .failed)).trans (releaseOwner_follows _ (.pair j))

theorem rstate_setSelection (s : State) (j i : Nat) (sel : Selection) : (s.setSelection j sel).rstate i = s.rstate i := by
  rw [setSelection_eq]; rfl

theorem tryCandidate_follows {s : State} {j : Nat} {slot : Slot} (st : PairState)
    (h : ∀ p, s.pair j = some p → s.rstate (p.region slot) = some .header) : Follows s (s.tryCandidate j slot st) := by
  unfold State.tryCandidate
  split
  · rename_i p c hp _
    refine ((setSelection_follows s j slot.selection).trans (modPair_state_follows _ j st)).trans (beginDigest_follows c ?_)
    exact (rstate_setSelection s j _ _).trans (h p hp)
  · exact Follows.refl s

/-- A slot that passed its header checks stands in HEADER. -/
theorem passed_header {s : State} {p : Pair} {slot : Slot} {m : Recorded} (h : s.passed p slot = some m) :
    s.rstate (p.region slot) = some .header := by
  unfold State.passed at h
  split at h
  · rename_i r hr
    split at h
    · rename_i hstate
      exact rstate_eq_some_iff.mpr ⟨r, hr, hstate⟩
    · cases h
  · cases h

/-- The candidates of a ranking stand in HEADER. -/
theorem rank_header {s : State} {p : Pair} {slot : Slot} (h : slot ∈ s.rank p) : s.rstate (p.region slot) = some .header := by
  suffices hp : ∃ m, s.passed p slot = some m by
    obtain ⟨m, hm⟩ := hp
    exact passed_header hm
  unfold State.rank at h
  split at h
  · rename_i hh ha
    cases slot
    · exact ⟨_, hh⟩
    · exact ⟨_, ha⟩
  · rename_i hh _
    obtain rfl := List.mem_singleton.mp h
    exact ⟨_, hh⟩
  · rename_i _ ha
    obtain rfl := List.mem_singleton.mp h
    exact ⟨_, ha⟩
  · cases h

/-- A waiting candidate stands in HEADER. -/
theorem waiting_header {s : State} {p : Pair} {w : Slot} (h : s.waiting p = some w) : s.rstate (p.region w) = some .header := by
  unfold State.waiting at h
  split at h
  · split at h
    · rename_i hstate
      obtain rfl := Option.some.inj h
      exact hstate
    · cases h
  · cases h

theorem rankPair_follows (s : State) (j : Nat) : Follows s (s.rankPair j) := by
  unfold State.rankPair
  split
  · exact Follows.refl s
  · rename_i p hp
    split
    · exact (modPair_order_follows s j fun _ => []).trans (failPair_follows _ j)
    · rename_i first rest hrank
      refine (modPair_order_follows s j fun _ => first :: rest).trans (tryCandidate_follows _ fun q hq => ?_)
      rw [pair_modPair, if_pos rfl, hp] at hq
      obtain rfl := Option.some.inj hq
      exact rank_header (s := s) (p := p) (hrank ▸ List.mem_cons_self)

theorem candidateVerified_follows (s : State) (j : Nat) : Follows s (s.candidateVerified j) := by
  unfold State.candidateVerified
  split
  · exact Follows.refl s
  · rename_i p hp
    dsimp only
    refine Follows.trans (Follows.trans ?_ (modPair_state_follows _ j .selected)) (releaseOwner_follows _ (.pair j))
    split
    · rename_i w hw
      obtain ⟨u, hu, hstate⟩ := rstate_eq_some_iff.mp (waiting_header hw)
      refine modRt_follows (fun r t _ ht hproper => ?_) (by simp)
      obtain rfl : u = t := Option.some.inj (hu.symm.trans ht)
      have hnone := hproper.reason_none (by simp [hstate])
      exact ⟨by simp [hnone], by simp, by simp⟩
    · exact Follows.refl s

theorem candidateRejected_follows (s : State) (j : Nat) : Follows s (s.candidateRejected j) := by
  unfold State.candidateRejected
  split
  · exact Follows.refl s
  · rename_i p hp
    split
    · rename_i w hw
      split
      · refine (modPair_escalated_follows s j).trans (tryCandidate_follows _ fun q hq => ?_)
        rw [pair_modPair, if_pos rfl, hp] at hq
        obtain rfl := Option.some.inj hq
        exact waiting_header hw
      · refine tryCandidate_follows _ fun q hq => ?_
        obtain rfl : p = q := Option.some.inj (hp.symm.trans hq)
        exact waiting_header hw
    · exact failPair_follows s j

/-! ## Header checks -/

theorem leNat_slice_lt (bs : List Byte) (a n : Nat) : leNat (slice bs a n) < 256 ^ n :=
  lt_of_lt_of_le (leNat_lt _) (Nat.pow_le_pow_right (by norm_num) (slice_length_le bs a n))

/-- The fields that a passing manifest leaves are in their ranges (R26, R28, R29). -/
theorem judgeManifest_pass {slots : Vector KeySlot 4} {floors : Vector Nat 8} {r : Region} {m : List Byte} {f : Recorded}
    (h : judgeManifest slots floors r m = .pass f) :
    1 ≤ f.signedLength ∧ 256 + f.signedLength ≤ r.length ∧ f.epoch ≤ 63 ∧ f.sequence < 2 ^ 32 := by
  have hsequence := leNat_slice_lt m 8 4
  unfold judgeManifest at h
  dsimp only at h
  split at h
  · cases h
  · split at h
    · cases h
    · split at h
      · cases h
      · split at h
        · cases h
        · split at h
          · cases h
          · split at h
            · cases h
            · split at h
              · cases h
              · cases h
                dsimp only
                omega

/-- A record that takes the fields of a passing manifest keeps its form in HEADER. -/
theorem Runtime.Proper.record {len : Nat} {t : Runtime} {f : Recorded} (h : t.Proper len) (hs : t.state = .header)
    (hf : 1 ≤ f.signedLength ∧ 256 + f.signedLength ≤ len ∧ f.epoch ≤ 63 ∧ f.sequence < 2 ^ 32) :
    ({ t with recorded := some f } : Runtime).Proper len := by
  obtain ⟨hreason, hcontext, -⟩ := h
  obtain ⟨h1, h2, h3, h4⟩ := hf
  refine ⟨hreason, hcontext, fun m hm => ?_⟩
  obtain rfl := Option.some.inj hm
  exact ⟨h1, h2, h3, h4, by simp [hs]⟩

theorem headerCheck_follows (s : State) (c : Fin 4) (i : Nat) : Follows s (s.headerCheck c i) := by
  unfold State.headerCheck
  split
  · rename_i x r t _ hr ht
    split
    · rename_i hcheck
      obtain ⟨hheader, -, -⟩ := hcheck
      have hrecord : ∀ f, judgeManifest s.keys.slots s.keys.floors r (x.manifest i) = .pass f →
          Follows s (s.modRt i fun t => { t with recorded := some f }) := by
        intro f hf
        refine modRt_follows (fun r' t' hr' ht' hp => ?_) (by simp)
        obtain rfl : r = r' := Option.some.inj (hr.symm.trans hr')
        obtain rfl : t = t' := Option.some.inj (ht.symm.trans ht')
        exact hp.record hheader (judgeManifest_pass hf)
      split
      · rename_i f _ hf _
        refine (hrecord f hf).trans (beginDigest_follows c (rstate_eq_some_iff.mpr ⟨{ t with recorded := some f }, ?_, hheader⟩))
        rw [rt_modRt, if_pos rfl, ht]
        rfl
      · rename_i f _ hf _
        exact hrecord f hf
      · exact (reject_follows s i _).trans (releaseCtx_follows _ c)
      · exact reject_follows s i _
    · exact Follows.refl s
  · exact Follows.refl s

theorem manifestComplete_follows (s : State) (c : Fin 4) (i : Nat) : Follows s (s.manifestComplete c i) := by
  unfold State.manifestComplete
  dsimp only
  split
  · split
    · split
      · exact (headerCheck_follows s c i).trans (rankPair_follows _ _)
      · exact headerCheck_follows s c i
    · exact headerCheck_follows s c i
  · exact headerCheck_follows s c i

/-! ## Gathering and absorbing bytes -/

theorem gather_follows (s : State) (c : Fin 4) (b : Byte) : Follows s (s.gather c b) := by
  unfold State.gather
  split
  · exact Follows.refl s
  · split
    · exact Follows.refl s
    · dsimp only
      split
      · exact (setCtx_follows s c _).trans (manifestComplete_follows _ c _)
      · exact setCtx_follows s c _

/-- The region a context hashes is in HASHING. -/
theorem hashing_rstate {s : State} {c : Fin 4} {i : Nat} (h : s.hashing c = some i) : s.rstate i = some .hashing := by
  have hin : s.hashesIn c i = true := by
    unfold State.hashing at h
    split at h
    · cases h
    · split at h
      · exact (Option.filter_eq_some_iff.mp h).2
      · cases h
  obtain ⟨t, ht, hstate⟩ := (Option.any_eq_true _ _).mp hin
  simp only [Bool.and_eq_true, beq_iff_eq] at hstate
  obtain ⟨hstate, -⟩ := hstate
  exact rstate_eq_some_iff.mpr ⟨t, ht, hstate⟩

/-- Digest completion keeps what the region's move to SIGNING keeps. -/
theorem completeDigest_follows {s u : State} {c : Fin 4} {i : Nat} {x : Ctx} {t : Runtime} (hx : u.ctx c = some x) (ht : u.rt i = some t)
    (h : Follows s (u.modRt i fun r => { r with state := .signing, context := none })) : Follows s (u.completeDigest c i) := by
  have hentry (l : List SigEntry) :
      Follows s { (u.modRt i fun r => { r with state := .signing, context := none }) with sigList := l } :=
    h.trans (follows_of_same rfl rfl)
  unfold State.completeDigest
  rw [hx, ht]
  dsimp only
  split
  · exact (hentry _).trans (releaseCtx_follows _ c)
  · split
    · exact (hentry _).trans (setCtx_follows _ c _)
    · exact (hentry _).trans (releaseCtx_follows _ c)

/-- A byte but the last leaves the region in HASHING with bytes to come; with the last it leaves HASHING in the same event (R71). -/
theorem absorb_follows {s : State} (c : Fin 4) {i : Nat} (b : Byte) (seen : Bool) (h : s.rstate i = some .hashing) :
    Follows s (s.absorb c i b seen) := by
  obtain ⟨u, hu, hstate⟩ := rstate_eq_some_iff.mp h
  unfold State.absorb
  split
  · rename_i x t hx ht
    obtain rfl : u = t := Option.some.inj (hu.symm.trans ht)
    have hctx := setCtx_follows s c
      (some { x with digest := x.digest.map (·.absorb b), nextRead := s.base i + 256 + (u.progress + 1),
                     wanted := (u.recorded.map Recorded.signedLength).getD 0 - (u.progress + 1) })
    have hself {t : Runtime} (ht : s.rt i = some t) : t = u := Option.some.inj (ht.symm.trans hu)
    dsimp only
    split
    · refine completeDigest_follows (ctx_setCtx_self _ _ _) (by rw [rt_modRt, if_pos rfl]; exact congrArg _ hu) ?_
      rw [modRt_modRt]
      refine hctx.trans (modRt_follows (fun r t _ ht hp => ?_) (by simp))
      obtain rfl := hself ht
      exact hp.sign hstate _ _
    · rename_i hlast
      refine hctx.trans (modRt_follows (fun r t _ ht hp => ?_) fun _ _ h => h)
      obtain rfl := hself ht
      exact hp.absorb hstate hlast _
  · exact Follows.refl s

/-! ## Accepted writes -/

theorem dropWaiting_follows (s : State) (j : Nat) (slot : Slot) (i : Nat) : Follows s (s.dropWaiting j slot i) := by
  unfold State.dropWaiting
  split
  · exact Follows.refl s
  · have horder : Follows s (s.modPair j fun p => { p with order := p.order.filter (· != slot) }) :=
      modPair_order_follows s j fun p => p.order.filter (· != slot)
    dsimp only
    split
    · split
      · exact (horder.trans (setCtx_follows _ _ _)).trans (releaseOwner_follows _ _)
      · exact horder.trans (releaseOwner_follows _ _)
    · split
      · exact horder.trans (setCtx_follows _ _ _)
      · exact horder

theorem staleInProgress_follows (s : State) (i : Nat) : Follows s (s.staleInProgress i) := by
  have hstale := markStale_follows s i
  unfold State.staleInProgress
  dsimp only
  split
  · exact hstale.trans (releaseOwner_follows _ _)
  · split
    · exact hstale
    · split
      case h_1 | h_2 => exact hstale.trans (releaseOwner_follows _ _)
      case h_3 => exact hstale
      case h_4 | h_5 =>
        split
        · exact hstale.trans (candidateRejected_follows _ _)
        · split
          · exact hstale.trans (dropWaiting_follows _ _ _ _)
          · exact hstale

theorem staleRegion_follows (s : State) (i : Nat) : Follows s (s.staleRegion i) := by
  have hsigning := (markStale_follows s i).trans (withdraw_follows _ i)
  unfold State.staleRegion
  split
  case h_1 | h_2 | h_3 | h_4 => exact Follows.refl s
  case h_5 | h_6 => exact staleInProgress_follows s i
  case h_7 =>
    dsimp only
    split
    · exact hsigning.trans (candidateRejected_follows _ _)
    · exact hsigning
  case h_8 | h_9 => exact markStale_follows s i

theorem staleRange_follows (s : State) (range : Nat × Nat) : Follows s (s.staleRange range) := foldl_follows staleRegion_follows _ s

/-! ## Check results -/

/-- A record in SIGNING keeps its form in VERIFIED. -/
theorem Runtime.Proper.verify {len : Nat} {t : Runtime} (h : t.Proper len) (hs : t.state = .signing) :
    ({ t with state := .verified, reason := none } : Runtime).Proper len := by
  obtain ⟨-, hcontext, hrecorded⟩ := h
  have hnone : t.context = none := by simpa [hs] using hcontext
  refine ⟨by simp, by simp [hnone], fun m hm => ?_⟩
  obtain ⟨h1, h2, h3, h4, -⟩ := hrecorded m hm
  exact ⟨h1, h2, h3, h4, by simp⟩

/-- A check result keeps the forms; a region it verifies may be the recovery region, so whether the swap stands is left to the event's
end. -/
theorem applyResult_forms (s : State) (e : SigEntry) (passed : Bool) : Forms s (s.applyResult e passed) := by
  unfold State.applyResult
  split
  · rename_i h
    obtain ⟨-, hsigning⟩ := h
    obtain ⟨u, hu, hstate⟩ := rstate_eq_some_iff.mp hsigning
    have hverdict : Forms s (s.modRt e.region fun r =>
        if passed then { r with state := .verified, reason := none } else r.reject .signature) := by
      refine modRt_forms fun r t _ ht hp => ?_
      obtain rfl : u = t := Option.some.inj (hu.symm.trans ht)
      cases passed
      · exact hp.reject _
      · exact hp.verify hstate
    dsimp only
    split
    · cases passed
      · exact hverdict.trans (candidateRejected_follows _ _).toForms
      · exact hverdict.trans (candidateVerified_follows _ _).toForms
    · exact hverdict
  · exact Forms.refl s

/-! ## Deadline expiry, and a new attempt -/

theorem rejectOverdue_follows (s : State) (i : Nat) : Follows s (s.rejectOverdue i) :=
  ((releaseOwner_follows s _).trans (reject_follows _ i _)).trans (withdraw_follows _ i)

theorem expire_follows (s : State) : Follows s s.expire := by
  unfold State.expire
  dsimp only
  refine Follows.trans (Follows.trans ?_ (foldl_follows rejectOverdue_follows _ _)) (foldl_follows failPair_follows _ _)
  exact follows_of_same rfl rfl

theorem newAttempt_follows (s : State) (i : Nat) : Follows s (s.newAttempt i) :=
  Follows.trans (modRt_follows (i := i) (f := fun _ => Runtime.fresh s.runNumber .queued) (fun _ _ _ _ _ => Runtime.fresh_proper _ _)
    fun _ _ h => by simp [Runtime.fresh] at h) (follows_of_same rfl rfl)

end Sys2Proof.Machine
end

section
/-! PROOFS. What closes an event, and every command: each step either keeps the records' form, the windows' agreement and the standing of
the recovery swap, or does so up to a last `settle`, in which the recovery swap may join (R159). -/

namespace Sys2Proof.Machine

/-! ## What leaves the tables -/

@[simp] theorem setTx_tables (s : State) (x : Option Tx) : (s.setTx x).tables = s.tables := by simp [State.tables]
@[simp] theorem send_tables (s : State) (bs : List Byte) : (s.send bs).tables = s.tables := by simp [State.tables]
@[simp] theorem flashSelect_tables (s : State) (b : Bool) : (s.flashSelect b).tables = s.tables := by simp [State.tables]
@[simp] theorem modShadow_tables (s : State) (f : Shadow → Shadow) : (s.modShadow f).tables = s.tables := by simp [State.tables]
@[simp] theorem answer_tables (s : State) (b : Byte) (o : Origin) : (s.answer b o).tables = s.tables := by simp [State.tables]
@[simp] theorem drive_tables (s : State) : s.drive.tables = s.tables := by simp [State.tables]
@[simp] theorem recordRefusal_tables (s : State) (cls : TxClass) (a : Option Nat) (cause : RefusalCause) :
    (s.recordRefusal cls a cause).tables = s.tables := by simp [State.tables]
@[simp] theorem place_tables (s : State) (code arg : Byte) (status : Status) (data : List Byte) :
    (s.place code arg status data).tables = s.tables := by simp [State.tables]
@[simp] theorem elapse_tables (s : State) (d : Nat) : (s.elapse d).tables = s.tables := by simp [State.tables]

@[simp] theorem forward_tables (s : State) (x : Tx) (e : ClassEntry) (bs : List Byte) : (s.forward x e bs).tables = s.tables := by
  simp [State.tables, State.forward]
@[simp] theorem forward_permit (s : State) (x : Tx) (e : ClassEntry) (bs : List Byte) : (s.forward x e bs).permit = s.permit := by
  simp [State.forward]
@[simp] theorem truncate_tables (s : State) (x : Tx) : (s.truncate x).tables = s.tables := by simp [State.truncate]
@[simp] theorem truncate_permit (s : State) (x : Tx) : (s.truncate x).permit = s.permit := by simp [State.truncate]
@[simp] theorem refuse_tables (s : State) (x : Tx) (cls : TxClass) (a : Option Nat) (cause : RefusalCause) :
    (s.refuse x cls a cause).tables = s.tables := by simp [State.refuse]
@[simp] theorem refuse_permit (s : State) (x : Tx) (cls : TxClass) (a : Option Nat) (cause : RefusalCause) :
    (s.refuse x cls a cause).permit = s.permit := by simp [State.refuse]
@[simp] theorem snoop_tables (s : State) (b : Byte) : (s.snoop b).tables = s.tables := by
  unfold State.snoop
  split <;> rfl
@[simp] theorem snoop_permit (s : State) (b : Byte) : (s.snoop b).permit = s.permit := by
  unfold State.snoop
  split <;> rfl
@[simp] theorem settleMode_tables (s : State) : s.settleMode.tables = s.tables := by simp [State.tables]
@[simp] theorem arbitrate_tables (s : State) : s.arbitrate.tables = s.tables := by
  rw [arbitrate_eq]
  simp [State.tables]
theorem arbitrate_permit (s : State) : s.arbitrate.permit = s.permit := by rw [arbitrate_eq]

/-! ## What closes an event -/

theorem enterHeader_follows (c : Fin 4) (s : State) (i : Nat) : Follows s (s.enterHeader c i) := by
  refine modRt_follows (fun r t _ _ hp => ?_) (by simp)
  obtain ⟨-, -, hrecorded⟩ := hp
  refine ⟨by simp, by simp, fun m hm => ?_⟩
  obtain ⟨h1, h2, h3, h4, -⟩ := hrecorded m hm
  exact ⟨h1, h2, h3, h4, by simp⟩

theorem grantOne_follows (s : State) : Follows s s.grantOne := by
  unfold State.grantOne
  split
  · refine Follows.trans ?_ (foldl_follows (enterHeader_follows _) _ _)
    exact follows_of_same rfl rfl
  · exact Follows.refl s

theorem grants_follows (s : State) : Follows s s.grants :=
  (((grantOne_follows s).trans (grantOne_follows _)).trans (grantOne_follows _)).trans (grantOne_follows _)

theorem takeCheck_follows (s : State) : Follows s s.takeCheck := follows_of_same (by simp [State.tables]) (by simp)

/-- The operations of a settling before the recovery decision keep the forms; the permit decision may enter DENIED. -/
theorem decided_forms (s : State) : Forms s s.grants.takeCheck.decidePermit := by
  refine ((grants_follows s).trans (takeCheck_follows _)).toForms.trans ?_
  have h : s.grants.takeCheck.decidePermit.tables = s.grants.takeCheck.tables := by simp [State.tables]
  exact ⟨recordsProper_of_tables h, windowsAgree_of_tables h, by simp⟩

/-- The entries the recovery swap leaves on the list: all but those of a pair that owns the boot window (R10). -/
def State.undisplaced (s : State) : List Window :=
  s.trans.filter fun w => !(w.cause == .pair && (w.owner.bind s.pair).any s.ownsBoot)

/-- What the recovery decision does: nothing, the swap standing where its flag is that of the list; or it installs the swap in DENIED, the
recovery region VERIFIED and no swap present. -/
theorem decideRecovery_cases (s : State) :
    (s.decideRecovery = s ∧ (s.recoverySwap = recoveryPresent s.trans → s.SwapStands))
      ∨ ∃ k b rec boot, s.permit = .denied ∧ s.recoveryRegion = some k ∧ s.isVerified k = true ∧ s.region k = some rec
          ∧ s.cfg.bootWindow = some b ∧ s.region b = some boot ∧ recoveryPresent s.trans = false
          ∧ s.decideRecovery
            = { s with trans := installSwap boot.base rec.base boot.length .recovery none s.undisplaced, recoverySwap := true } := by
  by_cases h : s.permit = .denied ∧ s.recoverySwap = false ∧ s.recoveryRegion.any s.isVerified = true
  · have hdecide : s.decideRecovery = s.installRecovery := by simp only [State.decideRecovery, if_pos h]
    obtain ⟨hdenied, hoff, hany⟩ := h
    obtain ⟨k, hk, hverified⟩ := (Option.any_eq_true _ _).mp hany
    obtain ⟨rec, hrec⟩ := recoveryRegion_region hk
    rw [hdecide]
    cases hboot : s.cfg.bootWindow.bind s.region with
    | none =>
      refine .inl ⟨by simp [State.installRecovery, hboot], fun _ _ _ _ _ hb => ?_⟩
      obtain ⟨b, hb, hsome⟩ := hb
      simp_all
    | some boot =>
      obtain ⟨b, hb, hregion⟩ := Option.bind_eq_some_iff.mp hboot
      cases hp : recoveryPresent s.trans with
      | true => exact .inl ⟨by simp [State.installRecovery, hboot, hk, hrec, hp], fun hflag => by simp [hoff] at hflag⟩
      | false =>
        exact .inr ⟨k, b, rec, boot, hdenied, hk, hverified, hrec, hb, hregion, rfl,
          by simp [State.installRecovery, hboot, hk, hrec, hp, State.undisplaced]⟩
  · refine .inl ⟨by simp only [State.decideRecovery, if_neg h], fun _ hdenied k hk hverified _ => ?_⟩
    by_contra hoff
    exact h ⟨hdenied, by simpa using hoff, by simp [hk, hverified]⟩

theorem recoveryPresent_undisplaced (s : State) (h : recoveryPresent s.trans = false) : recoveryPresent s.undisplaced = false := by
  simp only [recoveryPresent, State.undisplaced, List.any_eq_false] at h ⊢
  exact fun w hw => h w (List.mem_filter.mp hw).1

/-- Of a pair that owns the boot window no entry is left. -/
theorem filter_ofPair_undisplaced_own {s : State} {j : Nat} {p : Pair} (hp : s.pair j = some p) (h : s.ownsBoot p = true) :
    s.undisplaced.filter (Window.ofPair j) = [] := by
  rw [State.undisplaced, List.filter_filter, List.filter_eq_nil_iff]
  intro w _ hw
  simp only [Window.ofPair, Bool.and_eq_true, beq_iff_eq, Bool.not_eq_true', Bool.and_eq_false_iff] at hw
  obtain ⟨⟨hcause, howner⟩, hno⟩ := hw
  simp [hcause, howner, hp, h] at hno

/-- Of any other pair every entry is left. -/
theorem filter_ofPair_undisplaced_other {s : State} {j : Nat} {p : Pair} (hp : s.pair j = some p) (h : s.ownsBoot p = false) :
    s.undisplaced.filter (Window.ofPair j) = s.trans.filter (Window.ofPair j) := by
  rw [State.undisplaced, List.filter_filter]
  refine List.filter_congr fun w _ => ?_
  cases hw : w.ofPair j with
  | false => rfl
  | true =>
    simp only [Window.ofPair, Bool.and_eq_true, beq_iff_eq] at hw
    obtain ⟨hcause, howner⟩ := hw
    simp [hcause, howner, hp, h]

/-- The recovery swap joins in agreement: it displaces the pairs that own the boot window and no other (R10). -/
theorem decideRecovery_windowsAgree {s : State} (hs : s.WindowsAgree) : s.decideRecovery.WindowsAgree := by
  obtain ⟨he, -⟩ | ⟨k, b, rec, boot, -, -, -, -, -, -, hp, he⟩ := decideRecovery_cases s
  · rwa [he]
  · obtain ⟨hsorted, -, hpairs⟩ := hs
    have hpresent : recoveryPresent (installSwap boot.base rec.base boot.length .recovery none s.undisplaced) = true := by
      rw [recoveryPresent_installSwap]; rfl
    rw [he]
    refine ⟨installSwap_sorted _ _ _ _ _ _ (hsorted.filter _), hpresent.symm, fun j p hj => ?_⟩
    replace hj : s.pair j = some p := hj
    have hagree := hpairs j p hj
    rw [hp, Bool.false_and, if_neg Bool.false_ne_true] at hagree
    have hkept := (installSwap_perm boot.base rec.base boot.length .recovery none s.undisplaced).filter (Window.ofPair j)
    show List.Perm _ (if recoveryPresent (installSwap _ _ _ _ _ _) && s.ownsBoot p then [] else s.swapOf j p)
    rw [hpresent, Bool.true_and]
    refine hkept.trans ?_
    cases ho : s.ownsBoot p with
    | true => simp [Window.ofPair, ← filter_ofPair_undisplaced_own hj ho]
    | false =>
      rw [← filter_ofPair_undisplaced_other hj ho] at hagree
      simpa [Window.ofPair] using hagree

theorem settle_tables (s : State) : s.settle.tables = s.grants.takeCheck.decidePermit.decideRecovery.tables := drive_tables _

theorem settle_permit (s : State) : s.settle.permit = s.grants.takeCheck.decidePermit.permit := by simp [State.settle]

theorem settle_recordsProper {s : State} (hs : s.RecordsProper) : s.settle.RecordsProper := by
  refine recordsProper_of_tables (settle_tables s) ?_
  have hdecided := (decided_forms s).records hs
  intro i t hi
  rw [rt_congr (State.decideRecovery_runtime _)] at hi
  rw [region_congr (State.decideRecovery_regions _)]
  exact hdecided i t hi

theorem settle_windowsAgree {s : State} (hs : s.WindowsAgree) : s.settle.WindowsAgree :=
  windowsAgree_of_tables (settle_tables s) (decideRecovery_windowsAgree ((decided_forms s).windows hs))

/-- After a settling the recovery swap stands where R159 asks for it, whatever stood before. -/
theorem settle_swapStands {s : State} (hs : s.WindowsAgree) : s.settle.SwapStands := by
  obtain ⟨-, hflag, -⟩ := (decided_forms s).windows hs
  obtain ⟨he, hstands⟩ | ⟨_, _, _, _, -, -, -, -, -, -, -, he⟩ := decideRecovery_cases s.grants.takeCheck.decidePermit
  · show (State.drive _).SwapStands
    rw [he]
    exact hstands hflag
  · intro _ _ _ _ _
    show State.recoverySwap (State.decideRecovery _) = true
    rw [he]

/-- What a state in which the recovery swap has just been installed shows: DENIED, the recovery region VERIFIED, the two entries that
exchange it with the boot window on the list, and no entry of a pair that owns the boot window (R10, R159). -/
def State.Installed (t : State) : Prop :=
  t.permit = .denied ∧
    ∃ k b rec boot, t.recoveryRegion = some k ∧ t.isVerified k = true ∧ t.region k = some rec ∧ t.cfg.bootWindow = some b
      ∧ t.region b = some boot
      ∧ exchanges boot.base rec.base boot.length .recovery none t.trans
      ∧ ∀ w ∈ t.trans, w.cause = .pair → ∀ j p, w.owner = some j → t.pair j = some p → p.home ≠ b ∧ p.alternate ≠ b

theorem installed_of_tables {s t : State} (h : t.tables = s.tables) (hpermit : t.permit = s.permit) (hs : s.Installed) : t.Installed := by
  obtain ⟨hreg, hboot, hpairs, hrt, htrans, -⟩ := tables_eq_iff.mp h
  simp only [State.Installed, State.recoveryRegion, State.isVerified, State.rstate, rt_congr hrt, region_congr hreg, pair_congr hpairs,
    hreg, hboot, htrans, hpermit] at hs ⊢
  exact hs

/-- An entry of a pair that is left is not of one that owns the boot window. -/
theorem undisplaced_keeps_off_boot {s : State} {w : Window} {b j : Nat} {p : Pair} (hb : s.cfg.bootWindow = some b)
    (hw : w ∈ s.undisplaced) (hcause : w.cause = .pair) (howner : w.owner = some j) (hp : s.pair j = some p) :
    p.home ≠ b ∧ p.alternate ≠ b := by
  have hno : s.ownsBoot p ≠ true := by simpa [State.undisplaced, hcause, howner, hp] using (List.mem_filter.mp hw).2
  rw [ne_eq, ownsBoot_iff] at hno
  exact ⟨fun h => hno ⟨b, hb, .inl h⟩, fun h => hno ⟨b, hb, .inr h⟩⟩

theorem decideRecovery_installs {s : State} (hoff : s.recoverySwap = false) (hon : s.decideRecovery.recoverySwap = true) :
    s.decideRecovery.Installed := by
  obtain ⟨he, -⟩ | ⟨k, b, rec, boot, hdenied, hk, hverified, hrec, hb, hboot, -, he⟩ := decideRecovery_cases s
  · rw [he, hoff] at hon
    cases hon
  · rw [he]
    refine ⟨hdenied, k, b, rec, boot, hk, hverified, hrec, hb, hboot, exchanges_installSwap _ _ _ _ _ _,
      fun w hw hcause j p howner hp => ?_⟩
    have hin : w ∈ s.undisplaced := by
      simp only [installSwap, mem_insertWindow] at hw
      obtain rfl | rfl | hw := hw
      · cases hcause
      · cases hcause
      · exact hw
    exact undisplaced_keeps_off_boot hb hin hcause howner hp

theorem settle_installs {s : State} (hoff : s.recoverySwap = false) (hon : s.settle.recoverySwap = true) : s.settle.Installed :=
  installed_of_tables (settle_tables s) rfl (decideRecovery_installs ((decided_forms s).swapOff hoff) hon)

/-! ## What an event keeps -/

/-- An event keeps everything, or it keeps the forms up to a last settling, after which the tables and the permit state stay. -/
def EventKeeps (s t : State) : Prop :=
  Follows s t ∨ ∃ m, Forms s m ∧ t.tables = m.settle.tables ∧ t.permit = m.settle.permit

theorem EventKeeps.of_same {s t : State} (h : t.tables = s.tables) (hpermit : t.permit = s.permit) : EventKeeps s t :=
  .inl (follows_of_same h hpermit)

/-- Entering a permit state other than DENIED with the tables as they are keeps everything. -/
theorem EventKeeps.of_not_denied {s t : State} (h : t.tables = s.tables) (hpermit : t.permit ≠ .denied) : EventKeeps s t :=
  .inl (follows_of_tables h fun hd => absurd hd hpermit)

theorem Forms.settle {s m : State} (h : Forms s m) : EventKeeps s m.settle := .inr ⟨m, h, rfl, rfl⟩

/-- What an event does first may keep everything. -/
theorem Follows.event {s u t : State} (h : Follows s u) (h' : EventKeeps u t) : EventKeeps s t := by
  obtain h' | ⟨m, hm, htables, hpermit⟩ := h'
  · exact .inl (h.trans h')
  · exact .inr ⟨m, h.toForms.trans hm, htables, hpermit⟩

/-- What an event does last may leave the tables and the permit state. -/
theorem EventKeeps.same {s t u : State} (h : EventKeeps s t) (htables : u.tables = t.tables) (hpermit : u.permit = t.permit) :
    EventKeeps s u := by
  obtain h | ⟨m, hm, ht, hp⟩ := h
  · exact .inl (h.trans (follows_of_same htables hpermit))
  · exact .inr ⟨m, hm, htables.trans ht, hpermit.trans hp⟩

theorem EventKeeps.arbitrate {s t : State} (h : EventKeeps s t) : EventKeeps s t.arbitrate :=
  h.same (arbitrate_tables t) (arbitrate_permit t)

/-! ## Run start and resets -/

/-- Fresh tables are in form, whatever stood before. -/
theorem forms_of_fresh {s t : State} (hrecords : t.RecordsProper) (htrans : t.trans = []) (hswap : t.recoverySwap = false)
    (hpairs : ∀ j p, t.pair j = some p → p.selection = .none) : Forms s t := by
  refine ⟨fun _ => hrecords, fun _ => ⟨by simp [htrans], by simp [htrans, hswap, recoveryPresent], fun j p hp => ?_⟩, fun _ => hswap⟩
  have hnone : t.swapOf j p = [] := by simp [State.swapOf, hpairs j p hp]
  simp [htrans, hnone]

theorem newRun_forms (s u : State) (cause : StartCause) : Forms s (u.newRun cause) := by
  refine forms_of_fresh (fun i t hi => ?_) rfl rfl fun j p hp => ?_
  · have hrt : (u.newRun cause).rt i
        = ((u.region i).map fun r => if r.verifiable then some (Runtime.fresh (nextRun u.runNumber) .queued) else none).join := by
      simp [State.rt, State.newRun, State.region]
    rw [hrt] at hi
    obtain ⟨r, hr, hfresh⟩ : ∃ r, u.region i = some r
        ∧ (if r.verifiable then some (Runtime.fresh (nextRun u.runNumber) .queued) else none) = some t := by
      simpa [Option.join_eq_some_iff] using hi
    refine ⟨r, hr, ?_⟩
    split at hfresh
    · obtain rfl := Option.some.inj hfresh
      exact Runtime.fresh_proper _ _
    · cases hfresh
  · have hp' : (u.pair j).map Pair.afresh = some p := by simpa [State.pair, State.newRun] using hp
    obtain ⟨q, -, rfl⟩ := Option.map_eq_some_iff.mp hp'
    rfl

theorem runStart_keeps (s u : State) (cause : StartCause) : EventKeeps s (u.runStart cause) :=
  Forms.settle ((newRun_forms s u cause).trans (follows_of_same (drive_tables _) rfl).toForms)

/-- A reset leaves no records, no windows and no recovery swap, in LOADING. -/
theorem reset_keeps {s t : State} (hruntime : t.runtime = []) (htrans : t.trans = []) (hswap : t.recoverySwap = false)
    (hpairs : t.pairs = []) (hpermit : t.permit = .loading) : EventKeeps s t := by
  refine .inl ⟨forms_of_fresh (fun i r hi => ?_) htrans hswap (fun j p hp => ?_), fun _ hd => ?_⟩
  · simp [State.rt, hruntime] at hi
  · simp [State.pair, hpairs] at hp
  · rw [hpermit] at hd
    cases hd

/-! ## The commands: resets, load and provisioning -/

theorem execPowerOn_keeps {s t : State} {mode clkbyp cutReads : Bool} (h : execPowerOn mode clkbyp cutReads s = .next t) :
    EventKeeps s t := by
  cases h
  exact reset_keeps rfl rfl rfl rfl rfl

theorem execResetNAssert_keeps {s t : State} (h : execResetNAssert s = .next t) : EventKeeps s t := by
  unfold execResetNAssert at h
  split at h <;> cases h
  · exact .of_same rfl rfl
  · exact reset_keeps rfl rfl rfl rfl rfl

theorem execResetNRelease_keeps {s t : State} {mode clkbyp cutReads : Bool} (h : execResetNRelease mode clkbyp cutReads s = .next t) :
    EventKeeps s t := by
  unfold execResetNRelease at h
  split at h <;> cases h <;> exact .of_same rfl rfl

theorem afterLoad_keeps (s : State) : EventKeeps s s.afterLoad := by
  unfold State.afterLoad
  split
  · split
    · exact runStart_keeps s _ _
    · exact .of_not_denied rfl PermitState.noConfusion
  · split
    · exact .of_not_denied rfl PermitState.noConfusion
    · split
      · exact .of_not_denied rfl PermitState.noConfusion
      · exact .of_not_denied rfl PermitState.noConfusion

theorem execLoadComplete_keeps {s t : State} (h : execLoadComplete s = .next t) : EventKeeps s t := by
  unfold execLoadComplete at h
  split at h <;> cases h
  · exact .of_same rfl rfl
  · rename_i reads _
    have hbegin : Follows s { s with load := .none, store := s.store.resolve reads } := follows_of_same rfl rfl
    exact ((hbegin.event (afterLoad_keeps _)).same (settleMode_tables _) (State.settleMode_permit _)).arbitrate

/-- The next burn, or PROVISIONED, leaves the tables and does not enter DENIED. -/
theorem burnNext_keeps {s u : State} (want : Store) (h : u.tables = s.tables) (hpermit : u.permit = s.permit) :
    EventKeeps s (u.burnNext want).drive := by
  unfold State.burnNext
  split
  · exact .of_same h hpermit
  · exact .of_not_denied h PermitState.noConfusion

theorem execBootstrapReadComplete_keeps {s t : State} {image : List Byte} (h : execBootstrapReadComplete image s = .next t) :
    EventKeeps s t := by
  unfold execBootstrapReadComplete at h
  split at h
  · dsimp only at h
    split at h
    · cases h
      exact .of_not_denied rfl PermitState.noConfusion
    · split at h
      · cases h
        exact .of_not_denied rfl PermitState.noConfusion
      · obtain rfl := Host.Outcome.next.inj h
        exact burnNext_keeps _ rfl rfl
  · cases h
    exact .of_same rfl rfl

theorem execProvisionCellBurnComplete_keeps {s t : State} (h : execProvisionCellBurnComplete s = .next t) : EventKeeps s t := by
  unfold execProvisionCellBurnComplete at h
  split at h
  · obtain rfl := Host.Outcome.next.inj h
    exact burnNext_keeps _ rfl rfl
  · cases h
    exact .of_same rfl rfl
  · cases h
    exact .of_same rfl rfl

/-! ## The commands: the upstream port -/

theorem execUpstreamSelectAssert_keeps {s t : State} (h : execUpstreamSelectAssert s = .next t) : EventKeeps s t := by
  unfold execUpstreamSelectAssert at h
  split at h
  · cases h
    exact .of_same rfl rfl
  · dsimp only at h
    split at h <;> cases h <;> exact .of_same rfl rfl

theorem wire_keeps (s : State) (bs : List Byte) : EventKeeps s (s.wire bs) := by
  obtain ⟨-, -, he⟩ | ⟨-, he⟩ := wire_cases s bs <;> rw [he] <;> exact .of_same rfl rfl

theorem classify_keeps (s : State) (x : Tx) (b : Byte) (e : ClassEntry) : EventKeeps s (s.classify x b e) := by
  unfold State.classify
  split
  case h_2 => exact .of_same rfl rfl
  case h_3 => split <;> exact .of_same (by simp) (by simp)
  case h_4 => dsimp only; split <;> exact .of_same (by simp) (by simp)
  case h_5 => split <;> exact .of_same (by simp) (by simp)
  all_goals exact .of_same (by simp) (by simp)

theorem execInstructionByteComplete_keeps {s t : State} {b : Byte} (h : execInstructionByteComplete b s = .next t) : EventKeeps s t := by
  unfold execInstructionByteComplete at h
  split at h
  · split at h <;> cases h
    · exact classify_keeps s _ _ _
    · exact .of_same rfl rfl
  · cases h
    exact wire_keeps s _

theorem addressRead_keeps (s : State) (x : Tx) (e : ClassEntry) (a : BitVec 32) : EventKeeps s (s.addressRead x e a) := by
  unfold State.addressRead
  dsimp only
  split <;> exact .of_same (by simp) (by simp)

theorem addressWrite_keeps (s : State) (x : Tx) (e : ClassEntry) (a : BitVec 32) : EventKeeps s (s.addressWrite x e a) := by
  unfold State.addressWrite
  dsimp only
  split <;> exact .of_same (by simp) (by simp)

theorem address_keeps (s : State) (x : Tx) (e : ClassEntry) (a : BitVec 32) : EventKeeps s (s.address x e a) := by
  unfold State.address
  split
  case h_1 => exact addressRead_keeps s x e a
  case h_2 | h_3 | h_4 => exact addressWrite_keeps s x e a
  all_goals exact .of_same (by simp) (by simp)

theorem execAddressComplete_keeps {s t : State} {a : BitVec 32} (h : execAddressComplete a s = .next t) : EventKeeps s t := by
  unfold execAddressComplete at h
  split at h
  · split at h <;> cases h
    · exact address_keeps s _ _ a
    · exact .of_same rfl rfl
  · cases h
    exact wire_keeps s _

theorem execDummyCountComplete_keeps {s t : State} (h : execDummyCountComplete s = .next t) : EventKeeps s t := by
  unfold execDummyCountComplete at h
  split at h
  · split at h <;> cases h <;> exact .of_same rfl rfl
  · cases h
    exact .of_same rfl rfl

/-- The region that a shown byte is absorbed for is hashed in its context. -/
theorem observer_hashing {s : State} {a i : Nat} {c : Fin 4} (h : s.observer a = some (c, i)) : s.hashing c = some i := by
  unfold State.observer at h
  split at h
  · cases h
  · split at h
    · split at h
      · split at h
        · rename_i hcond
          obtain ⟨-, hhashing, -⟩ := hcond
          cases h
          exact hhashing
        · cases h
      · cases h
    · cases h

theorem offer_keeps (s : State) (a : Nat) (b : Byte) : EventKeeps s (s.offer a b) := by
  unfold State.offer
  split
  · rename_i c i hobs
    have habsorb := absorb_follows c b true (hashing_rstate (observer_hashing hobs))
    split
    · exact habsorb.toForms.settle
    · exact .inl habsorb
  · exact .of_same rfl rfl

theorem readByte_keeps (s : State) (x : Tx) (e : ClassEntry) (b : Byte) : EventKeeps s (s.readByte x e b) := by
  unfold State.readByte
  dsimp only
  split
  · refine Follows.event ?_ (offer_keeps _ _ b)
    exact follows_of_same rfl rfl
  · exact .of_same rfl rfl

theorem serviceByte_keeps (s : State) (x : Tx) (e : ClassEntry) (b : Byte) : EventKeeps s (s.serviceByte x e b) := by
  unfold State.serviceByte
  dsimp only
  repeat' split
  all_goals exact .of_same rfl rfl

theorem dataByte_keeps (s : State) (x : Tx) (e : ClassEntry) (b : Byte) : EventKeeps s (s.dataByte x e b) := by
  unfold State.dataByte
  dsimp only
  split
  case h_1 => exact serviceByte_keeps s x e b
  case h_5 => exact readByte_keeps s x e b
  case h_6 =>
    split
    · exact EventKeeps.same (.of_same rfl rfl) (snoop_tables _ _) (snoop_permit _ _)
    · exact .of_same rfl rfl
  all_goals exact .of_same rfl rfl

theorem execUpstreamDataByte_keeps {s t : State} {b : Byte} (h : execUpstreamDataByte b s = .next t) : EventKeeps s t := by
  unfold execUpstreamDataByte at h
  split at h
  · cases h
    split <;> exact .of_same rfl rfl
  · cases h
    split
    · exact (wire_keeps s _).same rfl rfl
    · exact .of_same rfl rfl
  · split at h
    · split at h <;> cases h
      · exact dataByte_keeps s _ _ b
      · exact .of_same rfl rfl
    · cases h
      exact .of_same rfl rfl

/-! ## The commands: select rise and requests -/

theorem accept_keeps (s : State) (x : Tx) (cls : TxClass) : EventKeeps s (s.accept x cls) := by
  have hwrite : EventKeeps s (s.acceptWrite x) := by
    unfold State.acceptWrite
    split
    · exact .of_same rfl rfl
    · dsimp only
      split
      · have hbusy : Follows s (s.modShadow fun sh => { sh with busy := .busy, writeEnable := .clear, wdPending := false }) :=
          follows_of_same rfl rfl
        exact (hbusy.trans (staleRange_follows _ _)).toForms.settle
      · exact .of_same rfl rfl
  unfold State.accept
  split
  case h_1 | h_2 | h_3 | h_4 | h_5 => exact hwrite
  all_goals exact .of_same rfl rfl

/-- The judgement at select rise: of a transaction that is not accepted, only the sleep of a truncated SLEEP is left pending. -/
theorem judgeRise_keeps (s : State) (x : Tx) :
    EventKeeps s (s.judgeRise x) ∧ (x.accepted = false → Follows s (s.judgeRise x)) := by
  unfold State.judgeRise
  split
  · exact ⟨.of_same rfl rfl, fun _ => Follows.refl s⟩
  · split
    · rename_i hacc
      exact ⟨accept_keeps s x _, fun hno => by rw [hacc] at hno; cases hno⟩
    · split
      · exact ⟨.of_same rfl rfl, fun _ => follows_of_same rfl rfl⟩
      · exact ⟨.of_same rfl rfl, fun _ => Follows.refl s⟩

theorem takeVerify_keeps (s : State) (index : Byte) : EventKeeps s (s.takeVerify index) := by
  unfold State.takeVerify
  dsimp only
  split
  · exact (newAttempt_follows s _).toForms.settle.same (place_tables ..) (State.place_permit ..)
  · exact .of_same rfl rfl

theorem takeRestart_keeps (s : State) : EventKeeps s s.takeRestart := by
  have hstart := runStart_keeps s s .restart
  unfold State.takeRestart
  split
  case h_1 | h_2 => exact hstart.same (place_tables ..) (State.place_permit ..)
  all_goals exact .of_same (place_tables ..) (State.place_permit ..)

theorem takeRaise_keeps (s : State) (kind : Byte) : EventKeeps s (s.takeRaise kind) := by
  unfold State.takeRaise
  dsimp only
  split <;> exact .of_same rfl rfl

theorem takeRevoke_keeps (s : State) (slot : Byte) : EventKeeps s (s.takeRevoke slot) := by
  unfold State.takeRevoke
  dsimp only
  split <;> exact .of_same rfl rfl

theorem takeDetail_keeps (s : State) (index : Byte) : EventKeeps s (s.takeDetail index) := by
  unfold State.takeDetail
  split <;> exact .of_same rfl rfl

theorem takeRequest_keeps (s : State) (q : Request) : EventKeeps s (s.takeRequest q) := by
  cases q with
  | report => exact .of_same rfl rfl
  | peek => exact .of_same rfl rfl
  | restart => exact takeRestart_keeps s
  | detail index => exact takeDetail_keeps s index
  | verify index => exact takeVerify_keeps s index
  | raiseFloor kind => exact takeRaise_keeps s kind
  | revoke slot => exact takeRevoke_keeps s slot
  | unknown code => exact .of_same rfl rfl

theorem takeBytes_keeps (s : State) (bytes : List Byte) : EventKeeps s (s.takeBytes bytes) := by
  unfold State.takeBytes
  split
  · exact takeRequest_keeps s _
  · exact .of_same rfl rfl

theorem handCauses_tables (s : State) (x : Tx) : (s.handCauses x).tables = s.tables := by
  unfold State.handCauses
  split <;> rfl

theorem handCauses_permit (s : State) (x : Tx) : (s.handCauses x).permit = s.permit := by
  unfold State.handCauses
  split <;> rfl

theorem endTx_tables (s : State) : s.endTx.tables = s.tables := settleMode_tables _

theorem endTx_permit (s : State) : s.endTx.permit = s.permit := State.settleMode_permit _

/-- A transaction that is accepted was relayed, so that it hands on no request; one that hands on a request was not accepted. -/
theorem rise_keeps (s : State) (x : Tx) : EventKeeps s (s.rise x) := by
  obtain ⟨hjudge, hquiet⟩ := judgeRise_keeps s x
  have htables := (endTx_tables _).trans (handCauses_tables (s.judgeRise x) x)
  have hpermit := (endTx_permit _).trans (handCauses_permit (s.judgeRise x) x)
  unfold State.rise State.handRequest
  refine EventKeeps.arbitrate ?_
  split
  · rename_i hreq
    have hno : x.accepted = false := by simp [Tx.accepted, hreq.1]
    exact ((hquiet hno).trans (follows_of_same htables hpermit)).event (takeBytes_keeps _ _)
  · exact hjudge.same htables hpermit

theorem execUpstreamSelectRise_keeps {s t : State} {clocks : Fin 8} (h : execUpstreamSelectRise clocks s = .next t) : EventKeeps s t := by
  unfold execUpstreamSelectRise at h
  split at h
  · split at h <;> cases h
    · exact rise_keeps s _
    · exact .of_same (settleMode_tables _) (State.settleMode_permit _)
    · exact .of_same (settleMode_tables _) (State.settleMode_permit _)
  · cases h
    exact .of_same rfl rfl

theorem request_keeps (s : State) (bytes : List Byte) : EventKeeps s (s.request bytes) := by
  unfold State.request
  split
  · split
    · have hafter : Follows s s.afterService := follows_of_same (settleMode_tables _) (State.settleMode_permit _)
      exact (hafter.event (takeBytes_keeps _ bytes)).arbitrate
    · exact .of_same rfl rfl
  · split
    · exact rise_keeps s _
    · exact .of_same rfl rfl

theorem execUnknownRequest_keeps {s t : State} {code : Byte} (h : execUnknownRequest code s = .next t) : EventKeeps s t := by
  unfold execUnknownRequest at h
  split at h <;> cases h
  · exact .of_same rfl rfl
  · exact request_keeps s _

theorem execFetch_keeps {s t : State} (h : execFetch s = .next t) : EventKeeps s t := by
  unfold execFetch at h
  split at h
  · split at h <;> cases h <;> exact .of_same rfl rfl
  · split at h <;> cases h <;> exact .of_same rfl rfl

/-! ## The commands: verifier, permit controller, flash port and key store -/

theorem takeByte_follows (s : State) (c : Fin 4) (b : Byte) : Follows s (s.takeByte c b) := by
  unfold State.takeByte
  split
  · exact gather_follows s c b
  · split
    · rename_i i hi
      exact absorb_follows c b false (hashing_rstate hi)
    · exact Follows.refl s
  · exact Follows.refl s

theorem countBurst_follows (s : State) (c : Fin 4) (left : Nat) : Follows s (s.countBurst c left) := by
  unfold State.countBurst
  split
  · split <;> exact follows_of_same rfl rfl
  · exact Follows.refl s

theorem execBurstByteReceived_keeps {s t : State} {b : Byte} (h : execBurstByteReceived b s = .next t) : EventKeeps s t := by
  unfold execBurstByteReceived at h
  split at h <;> cases h
  · rename_i c left _
    have hbyte := (takeByte_follows s c b).trans (countBurst_follows _ c left)
    refine EventKeeps.arbitrate ?_
    split
    · exact hbyte.toForms.settle
    · exact .inl hbyte
  · exact .of_same rfl rfl

theorem execSignatureCheckComplete_keeps {s t : State} (h : execSignatureCheckComplete s = .next t) : EventKeeps s t := by
  unfold execSignatureCheckComplete at h
  split at h <;> cases h
  · rename_i e withdrawn key r _
    have hidle : Follows s { s.elapse r with sigUnit := .idle } := follows_of_same rfl rfl
    refine EventKeeps.arbitrate (Forms.settle ?_)
    split
    · exact hidle.toForms
    · exact hidle.toForms.trans (applyResult_forms _ _ _)
  · exact .of_same rfl rfl

theorem execDeadlineExpiry_keeps {s t : State} (h : execDeadlineExpiry s = .next t) : EventKeeps s t := by
  unfold execDeadlineExpiry at h
  split at h <;> cases h
  · rename_i r _
    have helapse : Follows s (s.elapse r) := follows_of_same rfl rfl
    exact (helapse.trans (expire_follows _)).toForms.settle.arbitrate
  · exact .of_same rfl rfl

theorem execHoldPulseExpiry_keeps {s t : State} (h : execHoldPulseExpiry s = .next t) : EventKeeps s t := by
  unfold execHoldPulseExpiry at h
  split at h <;> cases h <;> exact .of_same rfl rfl

theorem execWakeComplete_keeps {s t : State} (h : execWakeComplete s = .next t) : EventKeeps s t := by
  unfold execWakeComplete at h
  split at h <;> cases h
  · exact EventKeeps.arbitrate (.of_same rfl rfl)
  · exact .of_same rfl rfl

theorem execWakeWaitEnd_keeps {s t : State} (h : execWakeWaitEnd s = .next t) : EventKeeps s t := by
  unfold execWakeWaitEnd at h
  split at h <;> cases h
  · exact EventKeeps.arbitrate (.of_same rfl rfl)
  · exact .of_same rfl rfl

theorem execStatusPollComplete_keeps {s t : State} {status : Byte} (h : execStatusPollComplete status s = .next t) : EventKeeps s t := by
  unfold execStatusPollComplete at h
  split at h <;> cases h
  · refine EventKeeps.arbitrate ?_
    split <;> exact .of_same rfl rfl
  · exact .of_same rfl rfl

theorem execPollWaitEnd_keeps {s t : State} (h : execPollWaitEnd s = .next t) : EventKeeps s t := by
  unfold execPollWaitEnd at h
  split at h <;> cases h
  · exact EventKeeps.arbitrate (.of_same rfl rfl)
  · exact .of_same rfl rfl

theorem execWriteDisableComplete_keeps {s t : State} (h : execWriteDisableComplete s = .next t) : EventKeeps s t := by
  unfold execWriteDisableComplete at h
  split at h <;> cases h
  · exact EventKeeps.arbitrate (.of_same rfl rfl)
  · exact .of_same rfl rfl

theorem execSleepComplete_keeps {s t : State} (h : execSleepComplete s = .next t) : EventKeeps s t := by
  unfold execSleepComplete at h
  split at h <;> cases h
  · exact EventKeeps.arbitrate (.of_same rfl rfl)
  · exact .of_same rfl rfl

theorem execFloorCellComplete_keeps {s t : State} (h : execFloorCellComplete s = .next t) : EventKeeps s t := by
  unfold execFloorCellComplete at h
  split at h <;> cases h <;> exact .of_same rfl rfl

theorem execRevokeCellComplete_keeps {s t : State} (h : execRevokeCellComplete s = .next t) : EventKeeps s t := by
  unfold execRevokeCellComplete at h
  split at h <;> cases h <;> exact .of_same rfl rfl

/-! ## The step -/

theorem exec_keeps {i : Instr} {s t : State} (h : exec i s = .next t) : EventKeeps s t := by
  have hrequest {bytes : List Byte} (h : Host.Outcome.next (s.request bytes) = (.next t : Result)) : EventKeeps s t := by
    cases h
    exact request_keeps s bytes
  cases i with
  | powerOn => exact execPowerOn_keeps h
  | resetNAssert => exact execResetNAssert_keeps h
  | resetNRelease => exact execResetNRelease_keeps h
  | loadComplete => exact execLoadComplete_keeps h
  | bootstrapReadComplete => exact execBootstrapReadComplete_keeps h
  | provisionCellBurnComplete => exact execProvisionCellBurnComplete_keeps h
  | upstreamSelectAssert => exact execUpstreamSelectAssert_keeps h
  | instructionByteComplete => exact execInstructionByteComplete_keeps h
  | addressComplete => exact execAddressComplete_keeps h
  | upstreamDataByte => exact execUpstreamDataByte_keeps h
  | upstreamSelectRise => exact execUpstreamSelectRise_keeps h
  | report => exact hrequest h
  | peek => exact hrequest h
  | detail => exact hrequest h
  | verify => exact hrequest h
  | restart => exact hrequest h
  | raiseFloor => exact hrequest h
  | revoke => exact hrequest h
  | fetch => exact execFetch_keeps h
  | unknownRequest => exact execUnknownRequest_keeps h
  | burstByteReceived => exact execBurstByteReceived_keeps h
  | signatureCheckComplete => exact execSignatureCheckComplete_keeps h
  | deadlineExpiry => exact execDeadlineExpiry_keeps h
  | holdPulseExpiry => exact execHoldPulseExpiry_keeps h
  | wakeComplete => exact execWakeComplete_keeps h
  | wakeWaitEnd => exact execWakeWaitEnd_keeps h
  | statusPollComplete => exact execStatusPollComplete_keeps h
  | pollWaitEnd => exact execPollWaitEnd_keeps h
  | writeDisableComplete => exact execWriteDisableComplete_keeps h
  | sleepComplete => exact execSleepComplete_keeps h
  | floorCellComplete => exact execFloorCellComplete_keeps h
  | revokeCellComplete => exact execRevokeCellComplete_keeps h
  | dummyCountComplete => exact execDummyCountComplete_keeps h

/-- Every step is an event in this sense. -/
theorem step_keeps {s t : State} (h : step s = .next t) : EventKeeps s t := by
  unfold step at h
  split at h
  · cases h
    exact .of_same rfl rfl
  · rename_i c rest _
    have hrest : Follows s { s with pending := rest } := follows_of_same rfl rfl
    exact hrest.event (exec_keeps h)

/-- Settles O46: by the cases of `step_keeps`, each of which keeps the records' form. -/
theorem everyStepKeepsTheRuntimeRecordsProper : Obligations.EveryStepKeepsTheRuntimeRecordsProper := by
  intro s t hs h
  obtain hfollows | ⟨m, hforms, htables, -⟩ := step_keeps h
  · exact hfollows.records hs
  · exact recordsProper_of_tables htables (settle_recordsProper (hforms.records hs))

/-- Settles O48: by the cases of `step_keeps`. A step that keeps everything installs no swap; a settling leaves the swap standing, and is
where it is installed. -/
theorem everyStepKeepsTheWindowsInAgreement : Obligations.EveryStepKeepsTheWindowsInAgreement := by
  refine ⟨fun s t hs h => ?_, fun s t hs hstands h => ?_, fun s t h hoff hon => ?_⟩
  · obtain hfollows | ⟨m, hforms, htables, -⟩ := step_keeps h
    · exact hfollows.windows hs
    · exact windowsAgree_of_tables htables (settle_windowsAgree (hforms.windows hs))
  · obtain hfollows | ⟨m, hforms, htables, hpermit⟩ := step_keeps h
    · exact hfollows.stands hstands
    · exact (follows_of_same htables hpermit).stands (settle_swapStands (hforms.windows hs))
  · obtain hfollows | ⟨m, hforms, htables, hpermit⟩ := step_keeps h
    · rw [hfollows.swapOff hoff] at hon
      cases hon
    · obtain ⟨-, -, -, -, -, hswap⟩ := tables_eq_iff.mp htables
      exact installed_of_tables htables hpermit (settle_installs (hforms.swapOff hoff) (hswap ▸ hon))

end Sys2Proof.Machine
end

section
/-! PROOFS. The stream arithmetic of a READ (R12 to R15): translation through a list with one entry more, the address phase, and the gate's
decision for one data byte. -/

namespace Sys2Proof.Machine

/-! ## Translation through one entry more -/

/-- The entry holds the logical address. -/
def Window.covers (w : Window) (l : Nat) : Prop := w.from_ ≤ l ∧ l < w.from_ + w.length

theorem translate_cons_of_covers {w : Window} {ws : List Window} {l : Nat} (h : w.covers l) :
    translate (w :: ws) l = l - w.from_ + w.to_ := by
  simp [translate, show w.from_ ≤ l from h.1, show l < w.from_ + w.length from h.2]

theorem translate_cons_of_not_covers {w : Window} {ws : List Window} {l : Nat} (h : ¬ w.covers l) :
    translate (w :: ws) l = translate ws l := by
  have hno : (decide (w.from_ ≤ l) && decide (l < w.from_ + w.length)) = false := by
    simpa [Window.covers] using h
  simp [translate, hno]

/-- An entry that does not hold the address changes nothing for it. -/
theorem translate_insertWindow_of_not_covers {w : Window} {l : Nat} (h : ¬ w.covers l) :
    ∀ ws, translate (insertWindow w ws) l = translate ws l
  | [] => translate_cons_of_not_covers h
  | v :: vs => by
    unfold insertWindow
    split
    · exact translate_cons_of_not_covers h
    · by_cases hv : v.covers l
      · rw [translate_cons_of_covers hv, translate_cons_of_covers hv]
      · rw [translate_cons_of_not_covers hv, translate_cons_of_not_covers hv, translate_insertWindow_of_not_covers h vs]

/-- An entry that holds the address, as no other does, translates it. -/
theorem translate_insertWindow_of_covers {w : Window} {l : Nat} (h : w.covers l) :
    ∀ ws, (∀ v ∈ ws, ¬ v.covers l) → translate (insertWindow w ws) l = l - w.from_ + w.to_
  | [], _ => translate_cons_of_covers h
  | v :: vs, hvs => by
    obtain ⟨hv, hvs⟩ := List.forall_mem_cons.mp hvs
    unfold insertWindow
    split
    · exact translate_cons_of_covers h
    · rw [translate_cons_of_not_covers hv, translate_insertWindow_of_covers h vs hvs]

/-- Settles O49: of the two entries a swap inserts, one holds an address of the first window, the other one of the second, and neither any
other address. -/
theorem aSwapExchangesItsWindows : Obligations.ASwapExchangesItsWindows := by
  intro a b len cause owner ws l hapart hws
  have hfree : (a ≤ l ∧ l < a + len) ∨ (b ≤ l ∧ l < b + len) → ∀ v ∈ ws, ¬ v.covers l := by
    intro hl v hv hc
    have hclear := hws v hv
    unfold Window.covers at hc
    omega
  dsimp only
  unfold installSwap
  refine ⟨fun h1 h2 => ?_, fun h1 h2 => ?_, fun ha hb => ?_⟩
  · refine translate_insertWindow_of_covers ⟨h1, h2⟩ _ fun v hv => ?_
    obtain rfl | hv := (mem_insertWindow _ _ _).mp hv
    · simp only [Window.covers]
      omega
    · exact hfree (.inl ⟨h1, h2⟩) v hv
  · rw [translate_insertWindow_of_not_covers (by simp only [Window.covers]; omega)]
    exact translate_insertWindow_of_covers ⟨h1, h2⟩ _ (hfree (.inr ⟨h1, h2⟩))
  · exact (translate_insertWindow_of_not_covers (w := ⟨a, b, len, cause, owner⟩) ha _).trans
      (translate_insertWindow_of_not_covers (w := ⟨b, a, len, cause, owner⟩) hb ws)

/-! ## The address of a READ -/

theorem outOfField_iff (w p : Nat) : outOfField w p = true ↔ w = 3 ∧ 2 ^ 24 ≤ p := by
  simp [outOfField]

theorem dataPhase_eq (e : ClassEntry) : e.dataPhase = if e.dummy ≠ 0 then .dummy else .data := by
  simp [ClassEntry.dataPhase]

/-- Settles O17: the two branches of the address phase of a READ. -/
theorem aReadIsSentToItsTranslatedAddress : Obligations.AReadIsSentToItsTranslatedAddress := by
  intro a s x e htx hphase hentry hread
  have hexec : exec (.addressComplete a) s = .next (s.addressRead (x.addressed e a) e a) := by
    show execAddressComplete a s = _
    simp [execAddressComplete, htx, hphase, hentry, State.address, hread]
  dsimp only
  rw [hexec, ← dataPhase_eq]
  refine ⟨fun hout => ?_, fun hin => ?_⟩
  · have hfield := (outOfField_iff _ _).mpr hout
    unfold State.addressRead
    exact congrArg Host.Outcome.next (if_pos hfield)
  · have hfield := mt (outOfField_iff _ _).mp hin
    unfold State.addressRead
    exact congrArg Host.Outcome.next (if_neg hfield)

/-! ## A data byte of a READ -/

theorem completeDigest_up (s : State) (c : Fin 4) (i : Nat) : (s.completeDigest c i).up = s.up := by
  unfold State.completeDigest
  split
  · dsimp only
    split
    · rfl
    · split <;> rfl
  · rfl

theorem absorb_up (s : State) (c : Fin 4) (i : Nat) (b : Byte) (seen : Bool) : (s.absorb c i b seen).up = s.up := by
  unfold State.absorb
  split
  · dsimp only
    split
    · exact completeDigest_up _ c i
    · rfl
  · rfl

/-- What observation makes of a shown byte leaves the upstream port. -/
theorem offer_up (s : State) (a : Nat) (b : Byte) : (s.offer a b).up = s.up := by
  unfold State.offer
  split
  · split
    · rw [State.settle_up, absorb_up]
    · exact absorb_up ..
  · rfl

/-- A data byte of a relayed READ is decided by `streamByte`. -/
theorem exec_readByte {b : Byte} {s : State} {x : Tx} {e : ClassEntry} (hmode : s.up.mode = .relaying) (htx : s.up.tx = some x)
    (hphase : x.phase = .data) (hentry : x.entry = some e) (hread : e.cls = .read) (hrelay : x.handling = .relay) :
    exec (.upstreamDataByte b) s = .next (s.readByte x e b) := by
  show execUpstreamDataByte b s = _
  simp [execUpstreamDataByte, hmode, htx, hphase, hentry, State.dataByte, hread, hrelay]

/-- The gate's decision for stream byte `k`: the flash's byte exactly when it is aligned and may be shown (R15, R81, R92). -/
theorem streamByte_flash_iff (s : State) (ws : List Window) (l0 k : Nat) :
    s.streamByte ws l0 k = .flash ↔
      wanted ws s.flashSize l0 k = delivered ws s.flashSize l0 k ∧ s.Showable (wanted ws s.flashSize l0 k) := by
  by_cases h : wanted ws s.flashSize l0 k = delivered ws s.flashSize l0 k
  · rw [streamByte_aligned h, gateByte_flash_iff]
    exact (and_iff_right h).symm
  · simp [streamByte_misaligned h, h]

/-- The cause of a filled stream byte: CROSSING when misaligned, else TAIL in a VERIFIED region and GATE in any other (R15, R81). -/
theorem streamByte_fill_cause {s : State} {ws : List Window} {l0 k : Nat} {cause : FillCause}
    (h : s.streamByte ws l0 k = .fill cause) :
    let p := wanted ws s.flashSize l0 k
    let f := delivered ws s.flashSize l0 k
    (p ≠ f → cause = .crossing)
      ∧ (p = f → (∃ i y, s.regionAt p = some i ∧ s.rt i = some y ∧ y.state = .verified) → cause = .tail)
      ∧ (p = f → ¬ (∃ i y, s.regionAt p = some i ∧ s.rt i = some y ∧ y.state = .verified) → cause = .gate) := by
  intro p f
  by_cases hpf : p = f
  · rw [streamByte_aligned hpf] at h
    obtain ⟨i, r, hi, -, ⟨hcause, t, ht, hverified⟩ | ⟨hcause, hno⟩⟩ := gateByte_fill h
    · exact ⟨fun hne => absurd hpf hne, fun _ _ => hcause, fun _ hn => absurd ⟨i, t, hi, ht, hverified⟩ hn⟩
    · refine ⟨fun hne => absurd hpf hne, fun _ hv => ?_, fun _ _ => hcause⟩
      obtain ⟨i', y, hi', hy, hverified⟩ := hv
      obtain rfl : i = i' := Option.some.inj (hi.symm.trans hi')
      exact absurd hverified (hno y hy)
  · rw [streamByte_misaligned hpf] at h
    cases h
    exact ⟨fun _ => rfl, fun he => absurd he hpf, fun he => absurd he hpf⟩

/-- Settles O20: by the stream byte's decision, which is `flash` exactly where it may be shown. -/
theorem theGateDecidesEachByteOfARead : Obligations.TheGateDecidesEachByteOfARead := by
  intro b s x e ws addr hmode htx hphase hentry hread hrelay hcaptured haddress size start p f
  have hws : x.captured.getD [] = ws := by rw [hcaptured]; rfl
  have hstart : s.logical e.addrBytes (x.address.getD 0) = start := by rw [haddress]; rfl
  have hup (t : Option Tx) (o : UpByte) : { s.up with tx := t, out := some o } = ⟨s.up.select, .relaying, t, some o⟩ := by
    rw [← hmode]
  refine ⟨s.readByte x e b, exec_readByte hmode htx hphase hentry hread hrelay, fun hshow => ?_, fun hhide => ?_⟩
  · have hflash : s.streamByte ws start x.k = .flash := (streamByte_flash_iff ..).mpr hshow
    unfold State.readByte
    dsimp only
    rw [hws, hstart, hflash]
    exact (offer_up ..).trans (hup _ _)
  · cases hdecide : s.streamByte ws start x.k with
    | flash => exact absurd ((streamByte_flash_iff ..).mp hdecide) hhide
    | fill cause =>
      obtain ⟨hcrossing, htail, hgate⟩ := streamByte_fill_cause hdecide
      refine ⟨cause, hcrossing, htail, hgate, ?_⟩
      unfold State.readByte
      dsimp only
      rw [hws, hstart, hdecide, ← hup]
      rfl

end Sys2Proof.Machine
end

section
/-! PROOFS. The validation of the region table (R4 to R6): what each of its checks says, and the pairs of a table that passes. -/

namespace Sys2Proof.Machine

/-! ## One record (R4) -/

theorem verifiable_iff (r : Region) : r.verifiable = true ↔ r.gate ≠ .opened := by simp [Region.verifiable]

theorem checked_iff (size : Nat) (r : Region) :
    Region.checked size r = true ↔ 4096 ≤ r.length ∧ r.base + r.length ≤ size
      ∧ (r.role.isSome = true ↔ r.gate ≠ .opened) ∧ (r.kind.isSome = true ↔ r.gate ≠ .opened)
      ∧ (r.priority.isSome = true ↔ r.gate ≠ .opened) ∧ (r.partner.isSome = true ↔ r.home.isSome = true)
      ∧ (r.gate ≠ .opened → 8192 ≤ r.length) ∧ (r.role = some .required → r.policy ≠ .free)
      ∧ (r.policy = .slot ↔ r.partner.isSome = true) := by
  have hbeq : ∀ a b : Bool, (a == b) = true ↔ (a = true ↔ b = true) := by decide
  have himp : ∀ a b : Bool, (!a || b) = true ↔ (a = true → b = true) := by decide
  have hpolicy : (r.policy == .slot) = true ↔ r.policy = .slot := beq_iff_eq
  have hrequired : (r.role != some .required || r.policy != .free) = true ↔ (r.role = some .required → r.policy ≠ .free) := by
    rw [Bool.or_eq_true, bne_iff_ne, bne_iff_ne]
    exact imp_iff_not_or.symm
  simp only [Region.checked, Bool.and_eq_true, hrequired, hbeq, himp, hpolicy, verifiable_iff, decide_eq_true_eq, and_assoc]
  rfl

/-! ## The order of the records (R4) -/

/-- Sorted by base with no overlap, from neighbour to neighbour and so between any two. -/
theorem regionsSorted_iff : ∀ rs : List Region, regionsSorted rs = true ↔ rs.Pairwise fun r r' => r.base + r.length ≤ r'.base
  | [] => by simp [regionsSorted]
  | [r] => by simp [regionsSorted]
  | r :: r' :: rest => by
    have ih := regionsSorted_iff (r' :: rest)
    simp only [regionsSorted, Bool.and_eq_true, decide_eq_true_eq, ih, List.pairwise_cons (a := r)]
    refine and_congr_left fun h => ⟨fun hle q hq => ?_, fun hall => hall r' List.mem_cons_self⟩
    obtain rfl | hq := List.mem_cons.mp hq
    · exact hle
    · have hnext := (List.pairwise_cons.mp h).1 q hq
      have hfirst : r.base + r.length ≤ r'.base := hle
      omega

/-! ## The pairs (R5) -/

theorem forall_zipIdx_iff {α : Type} (l : List α) (P : α → Nat → Prop) :
    (∀ x ∈ l.zipIdx, P x.1 x.2) ↔ ∀ i a, l[i]? = some a → P a i := by
  constructor
  · intro h i a ha
    exact h (a, i) (List.mk_mem_zipIdx_iff_getElem?.mpr ha)
  · rintro h ⟨a, i⟩ ha
    exact h i a (List.mk_mem_zipIdx_iff_getElem?.mp ha)

theorem aligned64K_iff (n : Nat) : aligned64K n = true ↔ n % 65536 = 0 := by simp [aligned64K]

theorem pairChecked_iff (rs : List Region) (i : Nat) (r : Region) :
    pairChecked rs i r = true ↔ ∀ q, r.partner = some q →
      q ≠ i ∧ ∃ r' : Region, rs[q]? = some r' ∧ r'.partner = some i ∧ r.length = r'.length
        ∧ r.base % 65536 = 0 ∧ r.length % 65536 = 0 ∧ r.gate = r'.gate ∧ r.role = r'.role ∧ r.kind = r'.kind ∧ r.priority = r'.priority ∧ r.gate ≠ .opened
        ∧ (r.home = some true ↔ r'.home ≠ some true) := by
  unfold pairChecked
  cases r.partner with
  | none => simp
  | some q =>
    cases hr' : rs[q]? with
    | none => simp [hr']
    | some r' =>
      have hhome : ((r.home == some true) != (r'.home == some true)) = true ↔ (r.home = some true ↔ r'.home ≠ some true) := by
        by_cases h : r.home = some true <;> by_cases h' : r'.home = some true <;> simp [h, h']
      simp [hr', hhome, aligned64K_iff, and_assoc]

/-! ## The recovery region and the boot window (R6) -/

/-- What R6 asks of recovery region `i`, of record `r`, and of the boot window of index byte `boot`. -/
def recoveryPlaced (rs : List Region) (boot : Byte) (i : Nat) (r : Region) : Prop :=
  r.gate = .hold ∧ r.policy = .locked ∧ r.partner = none ∧ r.base % 65536 = 0 ∧ r.length % 65536 = 0
    ∧ boot ≠ 0xFF ∧ boot.toNat ≠ i
    ∧ ∃ b : Region, rs[boot.toNat]? = some b ∧ b.gate = .hold ∧ b.length = r.length ∧ b.base % 65536 = 0 ∧ b.length % 65536 = 0

/-- The RECOVERY records with their indices, as the check finds them. -/
def recoveries (rs : List Region) : List (Region × Nat) := rs.zipIdx.filter fun (r, _) => r.role == some .recovery

theorem mem_recoveries (rs : List Region) (r : Region) (i : Nat) :
    (r, i) ∈ recoveries rs ↔ rs[i]? = some r ∧ r.role = some .recovery := by
  simp [recoveries, List.mk_mem_zipIdx_iff_getElem?]

theorem recoveryChecked_none {rs : List Region} (boot : Byte) (h : recoveries rs = []) :
    recoveryChecked rs boot = true ↔ boot = 0xFF := by
  unfold recoveryChecked
  rw [show rs.zipIdx.filter (fun (r, _) => r.role == some .recovery) = [] from h]
  simp

theorem recoveryChecked_one {rs : List Region} {r : Region} {i : Nat} (boot : Byte) (h : recoveries rs = [(r, i)]) :
    recoveryChecked rs boot = true ↔ recoveryPlaced rs boot i r := by
  unfold recoveryChecked recoveryPlaced
  rw [show rs.zipIdx.filter (fun (r, _) => r.role == some .recovery) = [(r, i)] from h]
  cases hb : rs[boot.toNat]? <;> simp [aligned64K_iff, and_assoc]

theorem recoveryChecked_more {rs : List Region} {x y : Region × Nat} {l : List (Region × Nat)} (boot : Byte)
    (h : recoveries rs = x :: y :: l) : recoveryChecked rs boot = false := by
  unfold recoveryChecked
  rw [show rs.zipIdx.filter (fun (r, _) => r.role == some .recovery) = x :: y :: l from h]

/-- Two RECOVERY records stand at different indices. -/
theorem recoveries_snd_ne {rs : List Region} {x y : Region × Nat} {l : List (Region × Nat)} (h : recoveries rs = x :: y :: l) :
    x.2 ≠ y.2 := by
  have hnodup : ((recoveries rs).map Prod.snd).Nodup := by
    refine List.Nodup.sublist ((List.filter_sublist (l := rs.zipIdx)).map Prod.snd) ?_
    rw [List.zipIdx_map_snd]
    exact List.nodup_range'
  rw [h] at hnodup
  simp at hnodup
  tauto

theorem recoveryChecked_iff (rs : List Region) (boot : Byte) :
    recoveryChecked rs boot = true ↔
      (∀ i r, rs[i]? = some r → r.role = some .recovery →
        recoveryPlaced rs boot i r ∧ ∀ i' r', rs[i']? = some r' → r'.role = some .recovery → i' = i)
        ∧ (boot ≠ 0xFF → ∃ r ∈ rs, r.role = some .recovery) := by
  have hmem : ∀ i r, rs[i]? = some r → r.role = some .recovery → (r, i) ∈ recoveries rs := fun i r hr hrole =>
    (mem_recoveries rs r i).mpr ⟨hr, hrole⟩
  cases h : recoveries rs with
  | nil =>
    rw [recoveryChecked_none boot h]
    rw [h] at hmem
    refine ⟨fun hboot => ⟨fun i r hr hrole => absurd (hmem i r hr hrole) List.not_mem_nil, fun hne => absurd hboot hne⟩,
      fun ⟨_, hex⟩ => ?_⟩
    by_contra hne
    obtain ⟨r, hr, hrole⟩ := hex hne
    obtain ⟨i, hi⟩ := List.mem_iff_getElem?.mp hr
    exact List.not_mem_nil (hmem i r hi hrole)
  | cons x l =>
    cases l with
    | nil =>
      obtain ⟨r, i⟩ := x
      obtain ⟨hr, hrole⟩ := (mem_recoveries rs r i).mp (by rw [h]; exact List.mem_singleton.mpr rfl)
      rw [h] at hmem
      have honly : ∀ i' r', rs[i']? = some r' → r'.role = some .recovery → r' = r ∧ i' = i := fun i' r' hr' hrole' => by
        simpa using hmem i' r' hr' hrole'
      rw [recoveryChecked_one boot h]
      refine ⟨fun hplaced => ⟨fun i' r' hr' hrole' => ?_, fun _ => ⟨r, List.mem_of_getElem? hr, hrole⟩⟩,
        fun ⟨hall, _⟩ => (hall i r hr hrole).1⟩
      obtain ⟨rfl, rfl⟩ := honly i' r' hr' hrole'
      exact ⟨hplaced, fun i'' r'' hr'' hrole'' => (honly i'' r'' hr'' hrole'').2⟩
    | cons y l =>
      obtain ⟨r, i⟩ := x
      obtain ⟨r', i'⟩ := y
      obtain ⟨hr, hrole⟩ := (mem_recoveries rs r i).mp (by rw [h]; simp)
      obtain ⟨hr', hrole'⟩ := (mem_recoveries rs r' i').mp (by rw [h]; simp)
      rw [recoveryChecked_more boot h]
      exact ⟨Bool.noConfusion, fun ⟨hall, _⟩ => absurd ((hall i r hr hrole).2 i' r' hr' hrole').symm (recoveries_snd_ne h)⟩

/-! ## The pair records (R5, R7) -/

/-- The pair record that region `i`, of record `r`, stands for: one where it is the lower slot of a pair. -/
def pairFrom (r : Region) (i : Nat) : Option Pair :=
  r.partner.bind fun q =>
    if i < q then some ⟨if r.home = some true then i else q, if r.home = some true then q else i, .none, .selecting, [], false⟩ else none

theorem pairsOf_eq (rs : List Region) : pairsOf rs = rs.zipIdx.filterMap fun x => pairFrom x.1 x.2 := by
  unfold pairsOf
  refine List.filterMap_congr fun x _ => ?_
  obtain ⟨r, i⟩ := x
  cases hq : r.partner <;> simp [pairFrom, hq]

/-- A pair record has its lower index from the region it is made of, and is as it stands from the load on. -/
theorem pairFrom_eq_some_iff {r : Region} {i : Nat} {p : Pair} :
    pairFrom r i = some p ↔ p = ⟨p.home, p.alternate, .none, .selecting, [], false⟩
      ∧ ((i = p.home ∧ r.partner = some p.alternate ∧ r.home = some true ∧ p.home < p.alternate)
        ∨ (i = p.alternate ∧ r.partner = some p.home ∧ r.home ≠ some true ∧ p.alternate < p.home)) := by
  constructor
  · intro h
    obtain ⟨q, hq, h⟩ := Option.bind_eq_some_iff.mp h
    split at h
    · rename_i hlt
      cases h
      by_cases hh : r.home = some true <;> simp [hq, hh, hlt]
    · cases h
  · rintro ⟨hp, ⟨rfl, hq, hh, hlt⟩ | ⟨rfl, hq, hh, hlt⟩⟩
    · simpa [pairFrom, hq, hh, hlt] using hp.symm
    · simpa [pairFrom, hq, hh, hlt] using hp.symm

theorem mem_pairsOf (rs : List Region) (p : Pair) : p ∈ pairsOf rs ↔ ∃ i r, rs[i]? = some r ∧ pairFrom r i = some p := by
  rw [pairsOf_eq, List.mem_filterMap]
  constructor
  · rintro ⟨⟨r, i⟩, hr, hp⟩
    exact ⟨i, r, List.mk_mem_zipIdx_iff_getElem?.mp hr, hp⟩
  · rintro ⟨i, r, hr, hp⟩
    exact ⟨(r, i), List.mk_mem_zipIdx_iff_getElem?.mpr hr, hp⟩

/-- The pairs of a table whose pair checks hold are its pairs of home and alternate slot, whichever has the lower index. -/
theorem mem_pairsOf_iff {rs : List Region} (hchecked : ∀ i r, rs[i]? = some r → pairChecked rs i r = true) (p : Pair) :
    p ∈ pairsOf rs ↔ p = ⟨p.home, p.alternate, .none, .selecting, [], false⟩
      ∧ ∃ h, rs[p.home]? = some h ∧ h.partner = some p.alternate ∧ h.home = some true := by
  simp only [pairChecked_iff] at hchecked
  rw [mem_pairsOf]
  constructor
  · rintro ⟨i, r, hr, hfrom⟩
    obtain ⟨hp, ⟨rfl, hq, hh, -⟩ | ⟨rfl, hq, hh, -⟩⟩ := pairFrom_eq_some_iff.mp hfrom
    · exact ⟨hp, r, hr, hq, hh⟩
    · obtain ⟨-, r', hr', hq', -, -, -, -, -, -, -, -, hhome⟩ := hchecked _ r hr _ hq
      exact ⟨hp, r', hr', hq', by simpa [hh] using hhome⟩
  · rintro ⟨hp, h, hr, hq, hh⟩
    obtain ⟨hne, r', hr', hq', -, -, -, -, -, -, -, -, hhome⟩ := hchecked _ h hr _ hq
    obtain hlt | hlt := lt_or_gt_of_ne hne
    · exact ⟨p.alternate, r', hr', pairFrom_eq_some_iff.mpr ⟨hp, .inr ⟨rfl, hq', hhome.mp hh, hlt⟩⟩⟩
    · exact ⟨p.home, h, hr, pairFrom_eq_some_iff.mpr ⟨hp, .inl ⟨rfl, hq, hh, hlt⟩⟩⟩

/-- The pair records stand in ascending order of their lower index. -/
theorem pairsOf_pairwise (rs : List Region) : (pairsOf rs).Pairwise fun p q => min p.home p.alternate < min q.home q.alternate := by
  have hlower {r : Region} {i : Nat} {p : Pair} (h : pairFrom r i = some p) : min p.home p.alternate = i := by
    obtain ⟨-, ⟨rfl, -, -, hlt⟩ | ⟨rfl, -, -, hlt⟩⟩ := pairFrom_eq_some_iff.mp h <;> omega
  have hindex : rs.zipIdx.Pairwise fun x y => x.2 < y.2 := by
    rw [← List.pairwise_map (f := Prod.snd), List.zipIdx_map_snd]
    exact List.pairwise_lt_range'
  rw [pairsOf_eq, List.pairwise_filterMap]
  refine hindex.imp fun hlt p hp q hq => ?_
  rwa [hlower hp, hlower hq]

/-! ## The table -/

theorem regionsChecked_iff (size : Nat) (rs : List Region) (boot : Byte) :
    regionsChecked size rs boot = true ↔
      (∀ r ∈ rs, Region.checked size r = true) ∧ regionsSorted rs = true ∧ (∀ i r, rs[i]? = some r → pairChecked rs i r = true)
        ∧ (pairsOf rs).length ≤ 4 ∧ recoveryChecked rs boot = true := by
  simp only [regionsChecked, Bool.and_eq_true, List.all_eq_true, decide_eq_true_eq, and_assoc,
    ← forall_zipIdx_iff rs fun r i => pairChecked rs i r = true]

/-- Settles O11: check by check, and the pairs of a table whose pair checks hold. -/
theorem theRegionTableIsValidated : Obligations.TheRegionTableIsValidated := by
  refine ⟨fun size rs boot => ?_, fun size rs boot h => ?_⟩
  · rw [regionsChecked_iff]
    simp only [checked_iff, regionsSorted_iff, pairChecked_iff, recoveryChecked_iff]
    refine and_congr_right' (and_congr_right' (and_congr ?_ (and_congr_right' (and_congr_left' ?_))))
    · exact ⟨fun hall i r q hr hq => hall i r hr q hq, fun hall i r hr q hq => hall i r q hr hq⟩
    · refine forall₄_congr fun i r _ _ => ?_
      unfold recoveryPlaced
      tauto
  · obtain ⟨-, -, hpairs, -, -⟩ := (regionsChecked_iff size rs boot).mp h
    exact ⟨mem_pairsOf_iff hpairs, pairsOf_pairwise rs⟩

end Sys2Proof.Machine
end

section
/-! PROOFS. The six header checks (R24 to R30): what each of the model's tests says of the manifest's bytes, and their order. -/

namespace Sys2Proof.Machine

theorem byteAt_of_lt {m : List Byte} {i : Nat} (h : i < m.length) : byteAt m i = m[i] := by simp [byteAt, h]

/-- The field bytes are those of erased flash. -/
theorem take_eq_replicate_iff {m : List Byte} {n : Nat} (b : Byte) (h : n ≤ m.length) :
    m.take n = List.replicate n b ↔ ∀ i < n, byteAt m i = b := by
  rw [List.ext_getElem_iff]
  simp only [List.length_take, List.length_replicate, min_eq_left h, true_and, List.getElem_take, List.getElem_replicate]
  exact ⟨fun heq i hi => (byteAt_of_lt (by omega)).trans (heq i hi hi), fun heq i hi _ => (byteAt_of_lt (by omega)).symm.trans (heq i hi)⟩

/-- The first four bytes are the marker (R21). -/
theorem take_eq_marker_iff {m : List Byte} (h : 4 ≤ m.length) :
    m.take 4 = markerBytes ↔ byteAt m 0 = 0x53 ∧ byteAt m 1 = 0x47 ∧ byteAt m 2 = 0x4E ∧ byteAt m 3 = 0x31 := by
  match m, h with
  | b0 :: b1 :: b2 :: b3 :: rest, _ => simp [markerBytes, byteAt]

/-- The slot byte names a slot that verifies images of the kind now (R27). -/
theorem usableSlot_eq_some_iff {slots : Vector KeySlot 4} {b : Byte} {k : Fin 8} {i : Fin 4} :
    usableSlot slots b k = some i ↔ b.toNat = i ∧ slots[i].state = .active ∧ slots[i].allowed.getLsbD k = true := by
  unfold usableSlot
  split
  · rename_i hb
    simp only [Option.ite_none_right_eq_some, Option.some.injEq, Fin.ext_iff]
    constructor
    · rintro ⟨huse, hi⟩
      obtain rfl : ⟨b.toNat, hb⟩ = i := Fin.ext hi
      exact ⟨rfl, huse⟩
    · rintro ⟨hi, huse⟩
      obtain rfl : ⟨b.toNat, hb⟩ = i := Fin.ext hi
      exact ⟨huse, rfl⟩
  · rename_i hb
    simp only [reduceCtorEq, false_iff]
    rintro ⟨hi, -⟩
    exact hb (hi ▸ i.isLt)

theorem usableSlot_eq_none_iff {slots : Vector KeySlot 4} {b : Byte} {k : Fin 8} :
    usableSlot slots b k = none ↔ ∀ i : Fin 4, ¬ (b.toNat = i ∧ slots[i].state = .active ∧ slots[i].allowed.getLsbD k = true) := by
  simp only [Option.eq_none_iff_forall_ne_some, ne_eq, usableSlot_eq_some_iff]

/-- Settles O38: the tests of `judgeManifest` are the checks of the table, in its order. -/
theorem theHeaderChecksAreMadeInOrder : Obligations.TheHeaderChecksAreMadeInOrder := by
  intro slots floors r m k hkind hlength blank format kind key epoch len length verdict
  have hblank : m.take 16 = List.replicate 16 0xFF ↔ blank := take_eq_replicate_iff _ (by omega)
  have hformat : (m.take 4 ≠ markerBytes ∨ byteAt m 4 ≠ 1 ∨ 63 < (byteAt m 7).toNat) ↔ ¬ format := by
    rw [ne_eq, take_eq_marker_iff (by omega), ← Nat.not_le]
    tauto
  have hepoch : (byteAt m 7).toNat < floors[k] ↔ ¬ epoch := Nat.not_le.symm
  have hlen : (len = 0 ∨ r.length < 256 + len) ↔ ¬ length := by simp only [length]; omega
  have hverdict : verdict = judgeManifest slots floors r m := rfl
  simp only [judgeManifest, hkind, hblank, hformat, hepoch] at hverdict
  refine ⟨fun hb => ?_, fun hb hf => ?_, fun hb hf hk => ?_, fun hb hf hk hno => ?_, fun i hb hf hk hi he => ?_,
    fun i hb hf hk hi he hl => ?_, fun i hb hf hk hi he hl => ?_⟩ <;> rw [hverdict]
  · rw [if_pos hb]
  · rw [if_neg hb, if_pos hf]
  · rw [if_neg hb, if_neg (not_not.mpr hf), if_pos hk]
  · rw [if_neg hb, if_neg (not_not.mpr hf), if_neg (not_not.mpr hk), usableSlot_eq_none_iff.mpr hno]
  all_goals rw [if_neg hb, if_neg (not_not.mpr hf), if_neg (not_not.mpr hk), usableSlot_eq_some_iff.mpr hi]
  · exact if_pos he
  · exact (if_neg (not_not.mpr he)).trans (if_pos (hlen.mpr hl))
  · exact (if_neg (not_not.mpr he)).trans (if_neg (hlen.not.mpr (not_not.mpr hl)))

end Sys2Proof.Machine
end

section
/-! PROOFS. The digest taken byte by byte is the hash of the blocks (R23; log 9): bytes that do not fill the block are only gathered, a
whole block is compressed, and the padding of the model is the one of fewer than 64 zeros that fills whole blocks. -/

namespace Sys2Proof.Machine

/-! ## Absorption -/

/-- Bytes that do not fill the block are only gathered. -/
theorem absorbAll_of_lt (d : Digest) (bs : List Byte) (h : d.block.length + bs.length < 64) :
    d.absorbAll bs = ⟨d.words, d.block ++ bs, d.count + bs.length⟩ := by
  induction bs generalizing d with
  | nil => simp [Digest.absorbAll]
  | cons b bs ih =>
    rw [List.length_cons] at h
    have hbyte : d.absorb b = ⟨d.words, d.block ++ [b], d.count + 1⟩ := if_neg (by omega)
    have hstep : d.absorbAll (b :: bs) = (d.absorb b).absorbAll bs := rfl
    rw [hstep, hbyte, ih _ (by simp; omega)]
    simp
    omega

/-- A whole block, from an empty one, is compressed. -/
theorem absorbAll_block (w : Words8) (n : Nat) (block : List Byte) (h : block.length = 64) :
    Digest.absorbAll ⟨w, [], n⟩ block = ⟨shaCompress w block, [], n + 64⟩ := by
  obtain ⟨front, last, rfl⟩ := (List.eq_nil_or_concat' block).resolve_left (by rintro rfl; simp at h)
  have hfront : front.length = 63 := by simpa using h
  rw [absorbAll_snoc, absorbAll_of_lt _ front (by simp [hfront]), List.nil_append, hfront]
  exact if_pos hfront

/-- Whole blocks are compressed one after another. -/
theorem absorbAll_flatten (w : Words8) (n : Nat) (blocks : List (List Byte)) (h : ∀ block ∈ blocks, block.length = 64) :
    Digest.absorbAll ⟨w, [], n⟩ blocks.flatten = ⟨blocks.foldl shaCompress w, [], n + 64 * blocks.length⟩ := by
  induction blocks generalizing w n with
  | nil => rfl
  | cons block blocks ih =>
    obtain ⟨hblock, hblocks⟩ := List.forall_mem_cons.mp h
    rw [List.flatten_cons, absorbAll_append, absorbAll_block w n block hblock, ih _ _ hblocks, List.foldl_cons, List.length_cons]
    congr 1
    omega

/-! ## Padding -/

/-- Fewer than 64 zeros fill whole blocks in one way. -/
theorem shaPadding_eq {count zeros blocks : Nat} (h : zeros < 64) (hwhole : count + (1 + zeros + 8) = 64 * blocks) :
    shaPadding count = 0x80 :: List.replicate zeros 0 ++ beBytes 8 (8 * count) := by
  have hzeros : (119 - count % 64) % 64 = zeros := by omega
  rw [shaPadding, hzeros]

/-- Settles O41: the message and its padding are absorbed as one string, which is that of the blocks. -/
theorem theDigestIsTheHashOfThePaddedBlocks : Obligations.TheDigestIsTheHashOfThePaddedBlocks := by
  intro message blocks hblocks hpadded
  obtain ⟨zeros, hzeros, hflatten⟩ := hpadded
  have habsorbed := absorbAll_flatten shaInitial 0 blocks hblocks
  have hlength : message.length + (1 + zeros + 8) = 64 * blocks.length := by
    have hcount := congrArg Digest.count habsorbed
    rw [absorbAll_count, hflatten] at hcount
    simp at hcount
    omega
  have hmessage : (Digest.begin.absorbAll message).count = message.length := by simp [absorbAll_count, Digest.begin]
  have hstate : (Digest.begin.absorbAll message).absorbAll (shaPadding message.length)
      = ⟨blocks.foldl shaCompress shaInitial, [], 0 + 64 * blocks.length⟩ := by
    rw [shaPadding_eq hzeros hlength, ← absorbAll_append, ← List.append_assoc, ← hflatten]
    exact habsorbed
  simp only [sha256, Digest.finish, hmessage, hstate]

end Sys2Proof.Machine
end

section
/-! PROOFS. What the closing of an event leaves of the verifier's records, and what the operations of a pair's selection procedure write:
the rules through which the proofs about header checks, rankings and check results go. -/

namespace Sys2Proof.Machine

/-! ## Runtime records -/

theorem rt_modRt_self {s : State} {i : Nat} {t : Runtime} (f : Runtime → Runtime) (h : s.rt i = some t) :
    (s.modRt i f).rt i = some (f t) := by
  rw [rt_modRt, if_pos rfl, h, Option.map_some]

theorem rt_modRt_of_ne {s : State} {i k : Nat} (f : Runtime → Runtime) (h : k ≠ i) : (s.modRt i f).rt k = s.rt k := by
  rw [rt_modRt, if_neg h]

/-! ## Contexts -/

theorem ctx_setCtx (s : State) (c d : Fin 4) (x : Option Ctx) : (s.setCtx c x).ctx d = if c = d then x else s.ctx d := by
  simp [State.ctx, Vector.getElem_set, Fin.ext_iff]

theorem ctx_releaseCtx_self (s : State) (c : Fin 4) : (s.releaseCtx c).ctx c = none := ctx_setCtx_self s c none

/-- Rewriting a held context under its owner leaves which context each owner holds. -/
theorem ctxOf_setCtx {s : State} {c : Fin 4} {x z : Ctx} (hz : s.ctx c = some z) (howner : x.owner = z.owner) (o : Owner) :
    (s.setCtx c (some x)).ctxOf o = s.ctxOf o := by
  have hsame (d : Fin 4) : ((s.setCtx c (some x)).ctx d).any (fun x => x.owner == o) = (s.ctx d).any fun x => x.owner == o := by
    rw [ctx_setCtx]
    split
    · rename_i hcd
      rw [← hcd, hz]
      exact congrArg (· == o) howner
    · rfl
  simp only [State.ctxOf, hsame]

/-! ## What waits in the queue -/

/-- No owner in the queue stands for region `i`. -/
def State.Unqueued (s : State) (i : Nat) : Prop := ∀ o ∈ s.queue, i ∉ s.ownerRegions o

/-- From `s` to `t` the queue stays, and its owners stand for the same regions. -/
structure SameWaiting (s t : State) : Prop where
  queue : t.queue = s.queue
  owners : ∀ o, t.ownerRegions o = s.ownerRegions o

theorem SameWaiting.refl (s : State) : SameWaiting s s := ⟨rfl, fun _ => rfl⟩

theorem SameWaiting.trans {s t u : State} (h : SameWaiting s t) (h' : SameWaiting t u) : SameWaiting s u :=
  ⟨h'.queue.trans h.queue, fun o => (h'.owners o).trans (h.owners o)⟩

theorem SameWaiting.unqueued {s t : State} (h : SameWaiting s t) {i : Nat} (hi : s.Unqueued i) : t.Unqueued i := by
  intro o ho
  rw [h.owners]
  exact hi o (h.queue ▸ ho)

theorem ownerRegions_congr {s t : State} (h : t.pairs = s.pairs) (o : Owner) : t.ownerRegions o = s.ownerRegions o := by
  cases o <;> simp [State.ownerRegions, pair_congr h]

theorem sameWaiting_of_same {s t : State} (hqueue : t.queue = s.queue) (hpairs : t.pairs = s.pairs) : SameWaiting s t :=
  ⟨hqueue, ownerRegions_congr hpairs⟩

theorem modRt_sameWaiting (s : State) (i : Nat) (f : Runtime → Runtime) : SameWaiting s (s.modRt i f) := sameWaiting_of_same rfl rfl

/-- Rewriting a pair record leaves its owner's regions, if the pair keeps its slots. -/
theorem modPair_sameWaiting {s : State} {j : Nat} {f : Pair → Pair} (h : ∀ p, (f p).home = p.home ∧ (f p).alternate = p.alternate) :
    SameWaiting s (s.modPair j f) := by
  refine ⟨rfl, fun o => ?_⟩
  cases o with
  | region => rfl
  | pair k =>
    simp only [State.ownerRegions, pair_modPair]
    split
    · cases s.pair k <;> simp [h]
    · rfl

/-! ## The closing of an event -/

/-- What the closing of an event leaves from `s` to `t`: it grants contexts to owners in the queue and to no other, rewrites the runtime
records of their regions alone, and changes the translation list only where the recovery swap joins it. -/
structure Closes (s t : State) : Prop where
  queue : ∀ o ∈ t.queue, o ∈ s.queue
  pairs : t.pairs = s.pairs
  rt : ∀ i, s.Unqueued i → t.rt i = s.rt i
  held : ∀ c z, s.ctx c = some z → t.ctx c = some z
  granted : ∀ c z, t.ctx c = some z → s.ctx c = some z ∨ z.owner ∈ s.queue
  windows : recoveryPresent t.trans = false → t.trans = s.trans

/-- What leaves the verifier's records leaves them. -/
theorem closes_of_same {s t : State} (hqueue : t.queue = s.queue) (hpairs : t.pairs = s.pairs) (hrt : t.runtime = s.runtime)
    (hctx : t.contexts = s.contexts) (htrans : recoveryPresent t.trans = false → t.trans = s.trans) : Closes s t := by
  have hc (c : Fin 4) : t.ctx c = s.ctx c := by simp [State.ctx, hctx]
  exact ⟨fun o ho => hqueue ▸ ho, hpairs, fun i _ => rt_congr hrt i, fun c z h => (hc c).trans h, fun c z h => .inl ((hc c).symm.trans h),
    htrans⟩

theorem Closes.trans {s t u : State} (h : Closes s t) (h' : Closes t u) : Closes s u := by
  refine ⟨fun o ho => h.queue o (h'.queue o ho), h'.pairs.trans h.pairs, fun i hi => ?_, fun c z hz => h'.held c z (h.held c z hz),
    fun c z hz => ?_, fun hno => ?_⟩
  · have ht : t.Unqueued i := fun o ho => by
      rw [ownerRegions_congr h.pairs]
      exact hi o (h.queue o ho)
    exact (h'.rt i ht).trans (h.rt i hi)
  · obtain hz | hz := h'.granted c z hz
    · exact h.granted c z hz
    · exact .inr (h.queue _ hz)
  · have hlast := h'.windows hno
    exact hlast.trans (h.windows (hlast ▸ hno))

theorem Closes.pair {s t : State} (h : Closes s t) (j : Nat) : t.pair j = s.pair j := pair_congr h.pairs j

theorem rt_foldl_enterHeader (c : Fin 4) {i : Nat} (is : List Nat) (s : State) (h : i ∉ is) :
    (is.foldl (fun t i => t.enterHeader c i) s).rt i = s.rt i := by
  induction is generalizing s with
  | nil => rfl
  | cons k is ih =>
    obtain ⟨hk, his⟩ := not_or.mp (mt List.mem_cons.mpr h)
    rw [List.foldl_cons, ih _ his, State.enterHeader, rt_modRt, if_neg hk]

theorem grantOne_closes (s : State) : Closes s s.grantOne := by
  have hnone (h : s.grantOne = s) : Closes s s.grantOne := by rw [h]; exact closes_of_same rfl rfl rfl rfl fun _ => rfl
  cases hqueue : s.queue with
  | nil => exact hnone (grantOne_of_empty s hqueue)
  | cons o rest =>
    cases hfree : s.freeCtx with
    | none => exact hnone (grantOne_of_no_free s hfree)
    | some d =>
      obtain ⟨hrest, hcontexts⟩ := grantOne_of_both s hqueue hfree
      have hctx (c : Fin 4) : s.grantOne.ctx c = if d = c then some (s.grantedCtx o) else s.ctx c := by
        rw [← ctx_setCtx]
        simp [State.ctx, hcontexts]
      have hd : s.ctx d = none := by simpa using List.find?_some hfree
      refine ⟨fun o' ho' => ?_, by rw [grantOne_eq], fun i hi => ?_, fun c z hz => ?_, fun c z hz => ?_, fun _ => by rw [grantOne_eq]⟩
      · rw [hrest] at ho'
        rw [hqueue]
        exact List.mem_cons_of_mem o ho'
      · have hio : i ∉ s.ownerRegions o := hi o (hqueue ▸ List.mem_cons_self)
        simp only [State.grantOne, hqueue, hfree]
        exact rt_foldl_enterHeader d _ _ hio
      · rw [hctx, if_neg (by rintro rfl; simp [hd] at hz)]
        exact hz
      · rw [hctx] at hz
        split at hz
        · obtain rfl := Option.some.inj hz
          exact .inr (hqueue ▸ List.mem_cons_self)
        · exact .inl hz

theorem grants_closes (s : State) : Closes s s.grants :=
  (((grantOne_closes s).trans (grantOne_closes _)).trans (grantOne_closes _)).trans (grantOne_closes _)

/-- The recovery decision changes the list only where it brings RECOVERY entries. -/
theorem decideRecovery_trans {s : State} (h : recoveryPresent s.decideRecovery.trans = false) : s.decideRecovery.trans = s.trans := by
  obtain ⟨he, -⟩ | ⟨_, _, _, _, -, -, -, -, -, -, -, he⟩ := decideRecovery_cases s
  · rw [he]
  · rw [he, recoveryPresent_installSwap] at h
    cases h

/-- An event that ends by settling and by the arbiter's choice closes so. -/
theorem settle_arbitrate_closes (s : State) : Closes s s.settle.arbitrate := by
  have hsettle : Closes s.grants s.settle.arbitrate := by
    refine closes_of_same (by simp [State.settle]) (by simp) (by simp [State.settle]) (by simp [State.settle]) fun h => ?_
    rw [State.arbitrate_trans, State.settle, State.drive_trans] at h ⊢
    rw [decideRecovery_trans h, State.decidePermit_trans, State.takeCheck_trans]
  exact (grants_closes s).trans hsettle

/-! ## Releasing a context -/

theorem releaseOwner_eq (s : State) (o : Owner) : s.releaseOwner o
    = { s with
        contexts := (s.releaseOwner o).contexts, runtime := (s.releaseOwner o).runtime, fp := (s.releaseOwner o).fp } := by
  unfold State.releaseOwner
  split <;> rfl

theorem releaseOwner_of_ctxOf {s : State} {o : Owner} {c : Fin 4} (h : s.ctxOf o = some c) : s.releaseOwner o = s.releaseCtx c := by
  simp [State.releaseOwner, h]

theorem pair_releaseOwner (s : State) (o : Owner) (j : Nat) : (s.releaseOwner o).pair j = s.pair j := by rw [releaseOwner_eq]; rfl

theorem releaseOwner_sameWaiting (s : State) (o : Owner) : SameWaiting s (s.releaseOwner o) := by
  rw [releaseOwner_eq]
  exact sameWaiting_of_same rfl rfl

/-- A release takes from a record its context at most. -/
theorem rt_releaseOwner {s : State} {k : Nat} {t : Runtime} (o : Owner) (h : s.rt k = some t) :
    ∃ x, (s.releaseOwner o).rt k = some { t with context := x } ∧ (t.context = none → x = none) := by
  unfold State.releaseOwner
  split
  · rename_i c _
    rw [rt_releaseCtx, h, Option.map_some]
    split
    · exact ⟨none, rfl, fun _ => rfl⟩
    · exact ⟨t.context, rfl, id⟩
  · exact ⟨t.context, h, id⟩

theorem rt_releaseOwner_of_none {s : State} {k : Nat} {t : Runtime} (o : Owner) (h : s.rt k = some t) (hnone : t.context = none) :
    (s.releaseOwner o).rt k = some t := by
  obtain ⟨x, hx, hxnone⟩ := rt_releaseOwner o h
  rw [hx, hxnone hnone, ← hnone]

/-! ## Pairs -/

/-- The slots of a pair are two regions. -/
theorem Pair.region_injective {p : Pair} (h : p.home ≠ p.alternate) : Function.Injective p.region := by
  intro a b hab
  cases a <;> cases b
  · rfl
  · exact absurd hab h
  · exact absurd hab.symm h
  · rfl

theorem Pair.selected_of_selection {p : Pair} {slot : Slot} (h : p.selection = slot.selection) : p.selected = some (p.region slot) := by
  cases slot <;> simp [Pair.selected, h, Slot.selection, Selection.slot]

theorem pair_modPair_self {s : State} {j : Nat} {p : Pair} (f : Pair → Pair) (h : s.pair j = some p) :
    (s.modPair j f).pair j = some (f p) := by
  rw [pair_modPair, if_pos rfl, h, Option.map_some]

theorem pair_setSelection {s : State} {j : Nat} {p : Pair} (sel : Selection) (h : s.pair j = some p) :
    (s.setSelection j sel).pair j = some { p with selection := sel } := by
  rw [setSelection_of_pair sel h]
  exact pair_modPair_self _ h

theorem setSelection_sameWaiting (s : State) (j : Nat) (sel : Selection) : SameWaiting s (s.setSelection j sel) := by
  cases h : s.pair j with
  | none =>
    simp only [State.setSelection, h]
    exact SameWaiting.refl s
  | some p =>
    rw [setSelection_of_pair sel h]
    refine SameWaiting.trans (modPair_sameWaiting (j := j) (f := fun p => { p with selection := sel }) fun _ => ⟨rfl, rfl⟩) ?_
    exact sameWaiting_of_same rfl rfl

theorem windowsFor_home (s : State) (j : Nat) (p : Pair) : s.windowsFor j p .home = dropPair j s.trans := by simp only [State.windowsFor]

theorem windowsFor_alternate {s : State} {p : Pair} {h a : Region} (j : Nat) (hh : s.region p.home = some h)
    (ha : s.region p.alternate = some a) (hno : recoveryPresent s.trans = false) :
    s.windowsFor j p .alternate = installSwap h.base a.base h.length .pair (some j) (dropPair j s.trans) := by
  simp [State.windowsFor, hh, ha, hno]

/-! ## Digests -/

theorem beginDigest_eq (s : State) (c : Fin 4) (i : Nat) : s.beginDigest c i
    = { s with contexts := (s.beginDigest c i).contexts, runtime := (s.beginDigest c i).runtime } := by
  unfold State.beginDigest
  split <;> rfl

theorem beginDigest_sameWaiting (s : State) (c : Fin 4) (i : Nat) : SameWaiting s (s.beginDigest c i) := by
  rw [beginDigest_eq]
  exact sameWaiting_of_same rfl rfl

theorem rt_beginDigest_of_ne (s : State) (c : Fin 4) {i k : Nat} (h : k ≠ i) : (s.beginDigest c i).rt k = s.rt k := by
  unfold State.beginDigest
  split
  · exact (rt_modRt _ _ _ _).trans (if_neg h)
  · rfl

section
variable {s : State} {c : Fin 4} {i : Nat} {x : Ctx} {t : Runtime} (hx : s.ctx c = some x) (ht : s.rt i = some t)
include hx ht

/-- The region enters HASHING in the context (R40). -/
theorem rt_beginDigest : (s.beginDigest c i).rt i = some { t with state := .hashing, progress := 0, context := some c } := by
  simp only [State.beginDigest, hx, ht]
  rw [rt_modRt, if_pos rfl]
  exact congrArg (Option.map _) ht

/-- The digest is begun with the 16 field bytes, and the payload is wanted from its start (R30, R62). -/
theorem ctx_beginDigest {r : Region} {m : Recorded} (hr : s.region i = some r) (hm : t.recorded = some m) :
    (s.beginDigest c i).ctx c = some { x with
      phase := .payload, digest := some (Digest.begin.absorbAll ((x.manifest i).take 16)), nextRead := r.base + 256
      wanted := m.signedLength } := by
  simp only [State.beginDigest, hx, ht, hm, State.base, hr, Option.map_some, Option.getD_some]
  exact ctx_setCtx_self s c _

end

/-! ## Trying a candidate -/

theorem tryCandidate_sameWaiting (s : State) (j : Nat) (slot : Slot) (st : PairState) : SameWaiting s (s.tryCandidate j slot st) := by
  unfold State.tryCandidate
  split
  · refine SameWaiting.trans ((setSelection_sameWaiting s j slot.selection).trans ?_) (beginDigest_sameWaiting _ _ _)
    exact modPair_sameWaiting fun _ => ⟨rfl, rfl⟩
  · exact SameWaiting.refl s

section
variable {s : State} {j : Nat} {p : Pair} {slot : Slot} {st : PairState} {c : Fin 4}
  (hp : s.pair j = some p) (hc : s.ctxOf (.pair j) = some c)
include hp hc

/-- The pair's record and the translation list change, then the digest begins (R47, R49). -/
theorem tryCandidate_eq : s.tryCandidate j slot st
    = ({ (s.modPair j fun p => { p with selection := slot.selection, state := st }) with
          trans := s.windowsFor j p slot.selection } : State).beginDigest c (p.region slot) := by
  simp only [State.tryCandidate, hp, hc, setSelection_of_pair slot.selection hp, State.modPair, List.modify_modify_eq]
  rfl

theorem pair_tryCandidate : (s.tryCandidate j slot st).pair j = some { p with selection := slot.selection, state := st } := by
  rw [tryCandidate_eq hp hc, beginDigest_eq]
  exact pair_modPair_self _ hp

theorem trans_tryCandidate : (s.tryCandidate j slot st).trans = s.windowsFor j p slot.selection := by
  rw [tryCandidate_eq hp hc, beginDigest_eq]

theorem rt_tryCandidate_of_ne {k : Nat} (h : k ≠ p.region slot) : (s.tryCandidate j slot st).rt k = s.rt k := by
  rw [tryCandidate_eq hp hc]
  exact rt_beginDigest_of_ne _ c h

theorem rt_tryCandidate {x : Ctx} {t : Runtime} (hx : s.ctx c = some x) (ht : s.rt (p.region slot) = some t) :
    (s.tryCandidate j slot st).rt (p.region slot) = some { t with state := .hashing, progress := 0, context := some c } := by
  rw [tryCandidate_eq hp hc]
  exact rt_beginDigest hx ht

theorem ctx_tryCandidate {x : Ctx} {t : Runtime} {r : Region} {m : Recorded} (hx : s.ctx c = some x)
    (ht : s.rt (p.region slot) = some t) (hr : s.region (p.region slot) = some r) (hm : t.recorded = some m) :
    (s.tryCandidate j slot st).ctx c = some { x with
      phase := .payload, digest := some (Digest.begin.absorbAll ((x.manifest (p.region slot)).take 16)), nextRead := r.base + 256
      wanted := m.signedLength } := by
  rw [tryCandidate_eq hp hc]
  refine ctx_beginDigest ?_ ?_ ?_ hm
  · exact hx
  · exact ht
  · exact hr

end

/-! ## The failure of a pair -/

theorem failPair_sameWaiting (s : State) (j : Nat) : SameWaiting s (s.failPair j) := by
  refine SameWaiting.trans ((setSelection_sameWaiting s j .none).trans ?_) (releaseOwner_sameWaiting _ _)
  exact modPair_sameWaiting fun _ => ⟨rfl, rfl⟩

theorem pair_failPair {s : State} {j : Nat} {p : Pair} (hp : s.pair j = some p) :
    (s.failPair j).pair j = some { p with selection := .none, state := .failed } := by
  rw [State.failPair, pair_releaseOwner]
  exact pair_modPair_self _ (pair_setSelection .none hp)

/-- A record that shows no context is left. -/
theorem rt_failPair {s : State} {k : Nat} {t : Runtime} (j : Nat) (h : s.rt k = some t) (hnone : t.context = none) :
    (s.failPair j).rt k = some t := by
  refine rt_releaseOwner_of_none _ ?_ hnone
  rw [setSelection_eq]
  exact h

/-- The pair's context is released (R50). -/
theorem ctx_failPair {s : State} {j : Nat} {c : Fin 4} (h : s.ctxOf (.pair j) = some c) : (s.failPair j).ctx c = none := by
  have hctx : ((s.setSelection j .none).modPair j fun p => { p with state := .failed }).ctxOf (.pair j) = some c := by
    rw [setSelection_eq]
    exact h
  rw [State.failPair, releaseOwner_of_ctxOf hctx]
  exact ctx_releaseCtx_self _ c

end Sys2Proof.Machine
end

section
/-! PROOFS. A pair ranks its candidates and tries them in order (R34, R45 to R50): the ranking by the slots that passed, and what a check
result does to the pair whose candidate it is for. A STALE slot did not pass (log 20). -/

namespace Sys2Proof.Machine

/-! ## The ranking -/

theorem passed_of_header {s : State} {p : Pair} {slot : Slot} {t : Runtime} (ht : s.rt (p.region slot) = some t)
    (hstate : t.state = .header) : s.passed p slot = t.recorded := by
  simp [State.passed, ht, hstate]

theorem passed_of_not_header {s : State} {p : Pair} {slot : Slot} {t : Runtime} (ht : s.rt (p.region slot) = some t)
    (hstate : t.state ≠ .header) : s.passed p slot = none := by
  simp [State.passed, ht, hstate]

theorem rank_of_both {s : State} {p : Pair} {mh ma : Recorded} (hh : s.passed p .home = some mh) (ha : s.passed p .alternate = some ma) :
    s.rank p = if mh.sequence < ma.sequence then [.alternate, .home] else [.home, .alternate] := by
  simp [State.rank, hh, ha]

theorem rank_of_home {s : State} {p : Pair} {mh : Recorded} (hh : s.passed p .home = some mh) (ha : s.passed p .alternate = none) :
    s.rank p = [.home] := by
  simp [State.rank, hh, ha]

theorem rank_of_alternate {s : State} {p : Pair} {ma : Recorded} (hh : s.passed p .home = none) (ha : s.passed p .alternate = some ma) :
    s.rank p = [.alternate] := by
  simp [State.rank, hh, ha]

theorem rank_of_none {s : State} {p : Pair} (hh : s.passed p .home = none) (ha : s.passed p .alternate = none) : s.rank p = [] := by
  simp [State.rank, hh, ha]

/-- A slot that is REJECTED or STALE is not in HEADER. -/
theorem ne_header_of_out {st : RState} (h : st = .rejected ∨ st = .stale) : st ≠ .header := by
  obtain rfl | rfl := h <;> decide

/-- The ranking, by which of the slots stand in HEADER with recorded fields (R34). -/
theorem rank_of_records {s : State} {p : Pair} {h a : Runtime} {mh ma : Recorded} (hh : s.rt p.home = some h)
    (ha : s.rt p.alternate = some a) :
    (h.state = .header → a.state = .header → h.recorded = some mh → a.recorded = some ma →
        (mh.sequence < ma.sequence → s.rank p = [.alternate, .home]) ∧ (ma.sequence ≤ mh.sequence → s.rank p = [.home, .alternate]))
      ∧ (h.state = .header → h.recorded = some mh → a.state = .rejected ∨ a.state = .stale → s.rank p = [.home])
      ∧ (a.state = .header → a.recorded = some ma → h.state = .rejected ∨ h.state = .stale → s.rank p = [.alternate])
      ∧ (h.state = .rejected ∨ h.state = .stale → a.state = .rejected ∨ a.state = .stale → s.rank p = []) := by
  have hhome : h.state = .header → h.recorded = some mh → s.passed p .home = some mh :=
    fun hs hr => (passed_of_header (slot := .home) hh hs).trans hr
  have halt : a.state = .header → a.recorded = some ma → s.passed p .alternate = some ma :=
    fun hs hr => (passed_of_header (slot := .alternate) ha hs).trans hr
  have hnohome : h.state = .rejected ∨ h.state = .stale → s.passed p .home = none :=
    fun hout => passed_of_not_header (slot := .home) hh (ne_header_of_out hout)
  have hnoalt : a.state = .rejected ∨ a.state = .stale → s.passed p .alternate = none :=
    fun hout => passed_of_not_header (slot := .alternate) ha (ne_header_of_out hout)
  refine ⟨fun hs hs' hr hr' => ⟨fun hlt => ?_, fun hle => ?_⟩, fun hs hr hout => rank_of_home (hhome hs hr) (hnoalt hout),
    fun hs hr hout => rank_of_alternate (hnohome hout) (halt hs hr), fun hout hout' => rank_of_none (hnohome hout) (hnoalt hout')⟩
  · rw [rank_of_both (hhome hs hr) (halt hs' hr'), if_pos hlt]
  · rw [rank_of_both (hhome hs hr) (halt hs' hr'), if_neg (by omega)]

/-! ## The waiting candidate -/

theorem waiting_of_order {s : State} {p : Pair} {first second : Slot} {t : Runtime} (hstate : p.state = .tryingFirst)
    (horder : p.order = [first, second]) (ht : s.rt (p.region second) = some t) (hheader : t.state = .header) :
    s.waiting p = some second := by
  simp [State.waiting, hstate, horder, State.rstate, ht, hheader]

/-- Behind the second candidate, or a first one that is alone, none waits. -/
theorem waiting_of_last {s : State} {p : Pair} (h : p.state = .tryingSecond ∨ (p.state = .tryingFirst ∧ p.order.length = 1)) :
    s.waiting p = none := by
  obtain hstate | ⟨hstate, hlength⟩ := h
  · simp [State.waiting, hstate]
  · obtain ⟨first, horder⟩ := List.length_eq_one_iff.mp hlength
    simp [State.waiting, hstate, horder]

/-! ## A verified candidate -/

/-- The record of a candidate that is left untried (R48). -/
def Runtime.untried (t : Runtime) : Runtime := { t with state := .unchecked, recorded := none, context := none, progress := 0 }

theorem candidateVerified_of_waiting {s : State} {j : Nat} {p : Pair} {w : Slot} (hp : s.pair j = some p) (hw : s.waiting p = some w) :
    s.candidateVerified j
      = ((s.modRt (p.region w) Runtime.untried).modPair j fun p => { p with state := .selected }).releaseOwner (.pair j) := by
  simp only [State.candidateVerified, hp, hw]
  rfl

theorem candidateVerified_of_last {s : State} {j : Nat} {p : Pair} (hp : s.pair j = some p) (hw : s.waiting p = none) :
    s.candidateVerified j = (s.modPair j fun p => { p with state := .selected }).releaseOwner (.pair j) := by
  simp only [State.candidateVerified, hp, hw]

theorem candidateVerified_sameWaiting (s : State) (j : Nat) : SameWaiting s (s.candidateVerified j) := by
  have hselect (u : State) (hu : SameWaiting s u) :
      SameWaiting s ((u.modPair j fun p => { p with state := .selected }).releaseOwner (.pair j)) := by
    refine (hu.trans ?_).trans (releaseOwner_sameWaiting _ _)
    exact modPair_sameWaiting fun _ => ⟨rfl, rfl⟩
  cases hp : s.pair j with
  | none =>
    simp only [State.candidateVerified, hp]
    exact SameWaiting.refl s
  | some p =>
    cases hw : s.waiting p with
    | none =>
      rw [candidateVerified_of_last hp hw]
      exact hselect s (SameWaiting.refl s)
    | some w =>
      rw [candidateVerified_of_waiting hp hw]
      exact hselect _ (sameWaiting_of_same rfl rfl)

/-- The pair is SELECTED (R48). -/
theorem pair_candidateVerified {s : State} {j : Nat} {p : Pair} (hp : s.pair j = some p) :
    (s.candidateVerified j).pair j = some { p with state := .selected } := by
  cases hw : s.waiting p with
  | none =>
    rw [candidateVerified_of_last hp hw, pair_releaseOwner]
    exact pair_modPair_self _ hp
  | some w =>
    rw [candidateVerified_of_waiting hp hw, pair_releaseOwner]
    exact pair_modPair_self _ hp

/-- The first candidate passes while the second waits (R48). -/
theorem candidateVerified_reads {s : State} {j : Nat} {p : Pair} {second : Slot} {i : Nat} {y y' : Runtime} {c : Fin 4}
    (hp : s.pair j = some p) (hw : s.waiting p = some second) (hc : s.ctxOf (.pair j) = some c) (hy : s.rt i = some y)
    (hy' : s.rt (p.region second) = some y') (hne : i ≠ p.region second) :
    (s.candidateVerified j).rt i = some { y with context := if y.context = some c then none else y.context }
      ∧ (s.candidateVerified j).rt (p.region second) = some y'.untried := by
  have hrelease : s.candidateVerified j
      = ((s.modRt (p.region second) Runtime.untried).modPair j fun p => { p with state := .selected }).releaseCtx c := by
    rw [candidateVerified_of_waiting hp hw]
    exact releaseOwner_of_ctxOf hc
  have hfirst : (s.modRt (p.region second) Runtime.untried).rt i = some y := (rt_modRt_of_ne _ hne).trans hy
  have hsecond := rt_modRt_self Runtime.untried hy'
  rw [hrelease, rt_releaseCtx, rt_releaseCtx]
  refine ⟨(congrArg (Option.map _) hfirst).trans ?_, (congrArg (Option.map _) hsecond).trans ?_⟩
  · rw [Option.map_some]
    split <;> rfl
  · simp [Runtime.untried]

/-! ## A rejected candidate -/

theorem candidateRejected_of_last {s : State} {j : Nat} {p : Pair} (hp : s.pair j = some p) (hw : s.waiting p = none) :
    s.candidateRejected j = s.failPair j := by
  simp only [State.candidateRejected, hp, hw]

/-- The selection flips to the waiting candidate; an OBSERVE pair is escalated (R49). -/
theorem candidateRejected_of_waiting {s : State} {j : Nat} {p : Pair} {w : Slot} (hp : s.pair j = some p) (hw : s.waiting p = some w) :
    s.candidateRejected j
      = (s.modPair j fun q => { q with escalated := q.escalated || decide (s.pairGate p = some .observe) }).tryCandidate j w
          .tryingSecond := by
  simp only [State.candidateRejected, hp, hw]
  split
  · rename_i hgate
    simp [hgate]
  · rename_i hgate
    have hsame : (s.modPair j fun q => { q with escalated := q.escalated || false }) = s := by
      simp only [State.modPair, Bool.or_false]
      exact congrArg (fun ps => { s with pairs := ps }) (List.modify_id j s.pairs)
    simp only [hgate, decide_false]
    rw [hsame]

theorem candidateRejected_sameWaiting (s : State) (j : Nat) : SameWaiting s (s.candidateRejected j) := by
  cases hp : s.pair j with
  | none =>
    simp only [State.candidateRejected, hp]
    exact SameWaiting.refl s
  | some p =>
    cases hw : s.waiting p with
    | none =>
      rw [candidateRejected_of_last hp hw]
      exact failPair_sameWaiting s j
    | some w =>
      rw [candidateRejected_of_waiting hp hw]
      refine SameWaiting.trans ?_ (tryCandidate_sameWaiting _ j w .tryingSecond)
      exact modPair_sameWaiting fun _ => ⟨rfl, rfl⟩

/-! ## The check result of a candidate -/

/-- The record of a region whose signature check passed (R42). -/
def Runtime.verify (t : Runtime) : Runtime := { t with state := .verified, reason := none }

/-- The state in which the result of a check is reported: its time passed, the signature unit IDLE (R76). -/
def State.checked (s : State) (rem : Nat) : State := { s.elapse rem with sigUnit := .idle }

theorem checked_sameWaiting (s : State) (rem : Nat) : SameWaiting s (s.checked rem) := sameWaiting_of_same rfl rfl

theorem candidateOf_of_selected {s : State} {i j : Nat} {p : Pair} (hof : s.pairOf i = some j) (hp : s.pair j = some p)
    (htrying : p.state = .tryingFirst ∨ p.state = .tryingSecond) (hselected : p.selected = some i) : s.candidateOf i = some j := by
  have htry : p.trying = true := by obtain h | h := htrying <;> simp [Pair.trying, h]
  simp [State.candidateOf, hof, hp, htry, Pair.isSelection, hselected]

section
variable {s : State} {g : SigEntry} {key : List Byte} {rem j : Nat} {y : Runtime} {p : Pair}
  (hunit : s.sigUnit = .checking g false key rem) (htag : g.runTag = s.runNumber) (hy : s.rt g.region = some y)
  (hstate : y.state = .signing) (hof : s.pairOf g.region = some j) (hp : s.pair j = some p)
  (htrying : p.state = .tryingFirst ∨ p.state = .tryingSecond) (hselected : p.selected = some g.region)
include hunit htag hy hstate hof hp htrying hselected

/-- A check result for the candidate of a pair is its verdict and the next move of the pair's procedure (R42, R48, R49). -/
theorem exec_signatureCheckComplete_of_candidate :
    exec .signatureCheckComplete s = .next
      (if checkSignature key g.digest g.signature then ((s.checked rem).modRt g.region Runtime.verify).candidateVerified j
        else ((s.checked rem).modRt g.region (Runtime.reject .signature)).candidateRejected j).settle.arbitrate := by
  have hcandidate : (s.checked rem).candidateOf g.region = some j := candidateOf_of_selected hof hp htrying hselected
  have happly (passed : Bool) : (s.checked rem).applyResult g passed
      = if passed then ((s.checked rem).modRt g.region Runtime.verify).candidateVerified j
        else ((s.checked rem).modRt g.region (Runtime.reject .signature)).candidateRejected j := by
    have hdue : g.runTag = (s.checked rem).runNumber ∧ (s.checked rem).rstate g.region = some .signing :=
      ⟨htag, rstate_eq_some_iff.mpr ⟨y, hy, hstate⟩⟩
    simp only [State.applyResult, if_pos hdue, hcandidate]
    cases passed <;> rfl
  rw [← happly]
  simp only [exec, execSignatureCheckComplete, hunit]
  rfl

theorem candidate_pass (hpass : checkSignature key g.digest g.signature = true) :
    ∃ t, exec .signatureCheckComplete s = .next t
      ∧ Closes (((s.checked rem).modRt g.region Runtime.verify).candidateVerified j) t := by
  rw [exec_signatureCheckComplete_of_candidate hunit htag hy hstate hof hp htrying hselected, if_pos hpass]
  exact ⟨_, rfl, settle_arbitrate_closes _⟩

theorem candidate_fail (hfail : checkSignature key g.digest g.signature = false) :
    ∃ t, exec .signatureCheckComplete s = .next t
      ∧ Closes (((s.checked rem).modRt g.region (Runtime.reject .signature)).candidateRejected j) t := by
  rw [exec_signatureCheckComplete_of_candidate hunit htag hy hstate hof hp htrying hselected, hfail]
  exact ⟨_, rfl, settle_arbitrate_closes _⟩

end

/-! ## The two results -/

/-- The state of the reported result, whatever the verdict writes, has the queue of the state before. -/
theorem checked_modRt_sameWaiting (s : State) (rem i : Nat) (f : Runtime → Runtime) : SameWaiting s ((s.checked rem).modRt i f) :=
  (checked_sameWaiting s rem).trans (modRt_sameWaiting _ i f)

section FirstOfTwo
variable {s : State} {g : SigEntry} {key : List Byte} {rem j : Nat} {y y' : Runtime} {p : Pair} {first second : Slot} {c : Fin 4}
  (hunit : s.sigUnit = .checking g false key rem) (htag : g.runTag = s.runNumber) (hy : s.rt g.region = some y)
  (hstate : y.state = .signing) (hof : s.pairOf g.region = some j) (hp : s.pair j = some p) (hfirst : p.state = .tryingFirst)
  (horder : p.order = [first, second]) (hselected : p.selected = some g.region) (hne : p.region second ≠ g.region)
  (hy' : s.rt (p.region second) = some y') (hheader : y'.state = .header) (hc : s.ctxOf (.pair j) = some c)
  (hqueue : s.Unqueued g.region) (hqueue' : s.Unqueued (p.region second))

include hy' hne in
theorem rt_second (f : Runtime → Runtime) : ((s.checked rem).modRt g.region f).rt (p.region second) = some y' :=
  (rt_modRt_of_ne f hne).trans hy'

include hy' hne hfirst horder hheader in
theorem second_waits (f : Runtime → Runtime) : ((s.checked rem).modRt g.region f).waiting p = some second :=
  waiting_of_order hfirst horder (rt_second hne hy' f) hheader

include hunit htag hy hstate hof hp hfirst horder hselected hne hy' hheader hc hqueue hqueue'

/-- PASS for the first candidate while the second waits (R48). -/
theorem first_candidate_pass (hcheck : checkSignature key g.digest g.signature = true) :
    ∃ t, exec .signatureCheckComplete s = .next t ∧ t.pair j = some { p with state := .selected }
      ∧ t.rt g.region = some { y with state := .verified, reason := none, context := if y.context = some c then none else y.context }
      ∧ ∃ w, t.rt (p.region second) = some w ∧ w.state = .unchecked ∧ w.recorded = none ∧ w.context = none := by
  obtain ⟨t, hexec, hclose⟩ := candidate_pass hunit htag hy hstate hof hp (.inl hfirst) hselected hcheck
  have hsame := (checked_modRt_sameWaiting s rem g.region Runtime.verify).trans (candidateVerified_sameWaiting _ j)
  obtain ⟨hreads, hreads'⟩ := candidateVerified_reads (s := (s.checked rem).modRt g.region Runtime.verify) hp
    (second_waits hfirst horder hne hy' hheader _) hc (rt_modRt_self _ hy) (rt_second hne hy' _) hne.symm
  refine ⟨t, hexec, ?_, ?_, _, (hclose.rt _ (hsame.unqueued hqueue')).trans hreads', rfl, rfl, rfl⟩
  · exact (hclose.pair j).trans (pair_candidateVerified hp)
  · exact (hclose.rt _ (hsame.unqueued hqueue)).trans hreads

/-- FAIL for the first candidate while the second waits: the second is tried (R49). -/
theorem first_candidate_fail {z : Ctx} {r : Region} {m : Recorded} (hz : s.ctx c = some z) (hr : s.region (p.region second) = some r)
    (hm : y'.recorded = some m) (hcheck : checkSignature key g.digest g.signature = false) :
    ∃ t, exec .signatureCheckComplete s = .next t
      ∧ t.pair j = some { p with
          state := .tryingSecond, selection := second.selection
          escalated := p.escalated || decide (s.pairGate p = some .observe) }
      ∧ t.rt g.region = some { y with state := .rejected, reason := some .signature, context := none }
      ∧ t.rt (p.region second) = some { y' with state := .hashing, progress := 0, context := some c }
      ∧ t.ctx c = some { z with
          phase := .payload, digest := some (Digest.begin.absorbAll ((z.manifest (p.region second)).take 16))
          nextRead := r.base + 256, wanted := m.signedLength } := by
  obtain ⟨t, hexec, hclose⟩ := candidate_fail hunit htag hy hstate hof hp (.inl hfirst) hselected hcheck
  have hsame := (checked_modRt_sameWaiting s rem g.region (Runtime.reject .signature)).trans (candidateRejected_sameWaiting _ j)
  have hrt := fun i hi => hclose.rt i (hsame.unqueued hi)
  have hflips := candidateRejected_of_waiting (s := (s.checked rem).modRt g.region (Runtime.reject .signature)) hp
    (second_waits hfirst horder hne hy' hheader _)
  rw [hflips] at hclose hrt
  have hescalated := pair_modPair_self
    (fun q => { q with escalated := q.escalated || decide (s.pairGate p = some .observe) })
    (show ((s.checked rem).modRt g.region (Runtime.reject .signature)).pair j = some p from hp)
  have hsecond := rt_second (g := g) (rem := rem) hne hy' (Runtime.reject .signature)
  refine ⟨t, hexec, ?_, ?_, ?_, ?_⟩
  · exact (hclose.pair j).trans (pair_tryCandidate hescalated hc)
  · exact (hrt _ hqueue).trans ((rt_tryCandidate_of_ne hescalated hc hne.symm).trans (rt_modRt_self _ hy))
  · exact (hrt _ hqueue').trans (rt_tryCandidate hescalated hc hz hsecond)
  · exact hclose.held _ _ (ctx_tryCandidate hescalated hc hz hsecond hr hm)

end FirstOfTwo

section Last
variable {s : State} {g : SigEntry} {key : List Byte} {rem j : Nat} {y : Runtime} {p : Pair}
  (hunit : s.sigUnit = .checking g false key rem) (htag : g.runTag = s.runNumber) (hy : s.rt g.region = some y)
  (hstate : y.state = .signing) (hof : s.pairOf g.region = some j) (hp : s.pair j = some p) (hselected : p.selected = some g.region)
  (hlast : p.state = .tryingSecond ∨ (p.state = .tryingFirst ∧ p.order.length = 1)) (hqueue : s.Unqueued g.region)
include hunit htag hy hstate hof hp hselected hlast hqueue

/-- PASS for a candidate behind which none waits (R48). -/
theorem last_candidate_pass (hcheck : checkSignature key g.digest g.signature = true) :
    ∃ t, exec .signatureCheckComplete s = .next t ∧ t.pair j = some { p with state := .selected }
      ∧ ∃ y', t.rt g.region = some y' ∧ y'.state = .verified ∧ y'.reason = none ∧ y'.recorded = y.recorded := by
  obtain ⟨t, hexec, hclose⟩ := candidate_pass hunit htag hy hstate hof hp (hlast.symm.imp_left And.left) hselected hcheck
  have hsame := (checked_modRt_sameWaiting s rem g.region Runtime.verify).trans (candidateVerified_sameWaiting _ j)
  have hrt := hclose.rt _ (hsame.unqueued hqueue)
  rw [candidateVerified_of_last (s := (s.checked rem).modRt g.region _) hp (waiting_of_last hlast)] at hrt
  obtain ⟨x, hx, -⟩ := rt_releaseOwner (s := ((s.checked rem).modRt g.region Runtime.verify).modPair j _) (.pair j)
    (rt_modRt_self Runtime.verify hy)
  exact ⟨t, hexec, (hclose.pair j).trans (pair_candidateVerified hp), _, hrt.trans hx, rfl, rfl, rfl⟩

/-- FAIL for a candidate behind which none waits: the pair fails (R50). -/
theorem last_candidate_fail (hcheck : checkSignature key g.digest g.signature = false) :
    ∃ t, exec .signatureCheckComplete s = .next t ∧ t.pair j = some { p with state := .failed, selection := .none }
      ∧ t.rt g.region = some { y with state := .rejected, reason := some .signature, context := none } := by
  obtain ⟨t, hexec, hclose⟩ := candidate_fail hunit htag hy hstate hof hp (hlast.symm.imp_left And.left) hselected hcheck
  have hsame := (checked_modRt_sameWaiting s rem g.region (Runtime.reject .signature)).trans (candidateRejected_sameWaiting _ j)
  have hrt := hclose.rt _ (hsame.unqueued hqueue)
  rw [candidateRejected_of_last (s := (s.checked rem).modRt g.region _) hp (waiting_of_last hlast)] at hclose hrt
  exact ⟨t, hexec, (hclose.pair j).trans (pair_failPair hp), hrt.trans (rt_failPair j (rt_modRt_self _ hy) rfl)⟩

end Last

/-- Settles O43: by the ranking of the records, and by the two results for a candidate behind which another waits and for one behind
which none does. -/
theorem aPairTriesItsCandidatesInOrder : Obligations.APairTriesItsCandidatesInOrder := by
  refine ⟨fun s p h a mh ma hh ha => rank_of_records hh ha, ?_, ?_⟩
  · intro s g key rem y y' j p first second c z r m hunit htag hy hstate hof hp hfirst horder hslots hregions hregion hsel hy' hheader
      hm hr hc hz hqueue
    have hselected : p.selected = some g.region := (Pair.selected_of_selection hsel).trans (congrArg some hregion)
    have hne : p.region second ≠ g.region := hregion ▸ (Pair.region_injective hregions).ne hslots.symm
    have hunqueued : s.Unqueued g.region := fun o ho => (hqueue o ho).1
    have hunqueued' : s.Unqueued (p.region second) := fun o ho => (hqueue o ho).2
    cases hcheck : checkSignature key g.digest g.signature with
    | true =>
      obtain ⟨t, hexec, hpass⟩ := first_candidate_pass hunit htag hy hstate hof hp hfirst horder hselected hne hy' hheader hc hunqueued
        hunqueued' hcheck
      exact ⟨t, hexec, fun _ => hpass, nofun⟩
    | false =>
      obtain ⟨t, hexec, hfail⟩ := first_candidate_fail hunit htag hy hstate hof hp hfirst horder hselected hne hy' hheader hc hunqueued
        hunqueued' hz hr hm hcheck
      exact ⟨t, hexec, nofun, fun _ => hfail⟩
  · intro s g key rem y j p hunit htag hy hstate hof hp hselected hlast hqueue
    cases hcheck : checkSignature key g.digest g.signature with
    | true =>
      obtain ⟨t, hexec, hpass⟩ := last_candidate_pass hunit htag hy hstate hof hp hselected hlast hqueue hcheck
      exact ⟨t, hexec, fun _ => hpass, nofun⟩
    | false =>
      obtain ⟨t, hexec, hfail⟩ := last_candidate_fail hunit htag hy hstate hof hp hselected hlast hqueue hcheck
      exact ⟨t, hexec, nofun, fun _ => hfail⟩

end Sys2Proof.Machine
end

section
/-! PROOFS. The last byte of a manifest brings its header check (R24, R32), and of a pair the ranking and its first candidate (R34, R45 to
R47): the byte's way to the check, what the check does under either owner, and the ranking of the two verdicts. -/

namespace Sys2Proof.Machine

/-! ## The eightieth byte -/

/-- The header store in which region `i` gathers its manifest: the manifests before it are whole, none but its own is of region `i`. -/
structure Gathers (before : List Manifest) (i : Nat) (behind : List Manifest) : Prop where
  whole : ∀ m ∈ before, m.bytes.length = 80
  before_ne : ∀ m ∈ before, m.region ≠ i
  behind_ne : ∀ m ∈ behind, m.region ≠ i

theorem gathers_alone (i : Nat) : Gathers [] i [] := ⟨nofun, nofun, nofun⟩

theorem gathers_home {p : Pair} (h : p.home ≠ p.alternate) (bs : List Byte) : Gathers [] p.home [⟨p.alternate, bs⟩] := by
  refine ⟨nofun, nofun, fun m hm => ?_⟩
  obtain rfl := List.mem_singleton.mp hm
  exact h.symm

theorem gathers_alternate {p : Pair} (h : p.home ≠ p.alternate) {bs : List Byte} (hbs : bs.length = 80) :
    Gathers [⟨p.home, bs⟩] p.alternate [] := by
  refine ⟨fun m hm => ?_, fun m hm => ?_, nofun⟩ <;> obtain rfl := List.mem_singleton.mp hm
  · exact hbs
  · exact h

/-- The context once region `i` has its byte `b`, the next read at `next`. -/
def Ctx.filled (z : Ctx) (before : List Manifest) (i : Nat) (bs : List Byte) (behind : List Manifest) (next : Nat) : Ctx :=
  { z with store := before ++ ⟨i, bs⟩ :: behind, nextRead := next, wanted := z.wanted - 1 }

/-- The base of the next manifest to gather, or the address after the byte just read (R61). -/
def State.nextManifest (s : State) (z : Ctx) (behind : List Manifest) : Nat :=
  ((behind.find? fun m => decide (m.bytes.length < 80)).map fun m => s.base m.region).getD (z.nextRead + 1)

/-- The state in which region `i` has its byte in context `c`, and what the byte brings is still to come. -/
def State.fill (s : State) (c : Fin 4) (z : Ctx) (before : List Manifest) (i : Nat) (bs : List Byte) (behind : List Manifest) : State :=
  s.setCtx c (some (z.filled before i bs behind (s.nextManifest z behind)))

theorem ctx_fill (s : State) (c : Fin 4) (z : Ctx) (before : List Manifest) (i : Nat) (bs : List Byte) (behind : List Manifest) :
    (s.fill c z before i bs behind).ctx c = some (z.filled before i bs behind (s.nextManifest z behind)) := ctx_setCtx_self s c _

theorem fill_sameWaiting (s : State) (c : Fin 4) (z : Ctx) (before : List Manifest) (i : Nat) (bs : List Byte) (behind : List Manifest) :
    SameWaiting s (s.fill c z before i bs behind) := sameWaiting_of_same rfl rfl

/-- The first manifest that is not whole is the one behind the whole ones. -/
theorem find_short {before behind : List Manifest} (hwhole : ∀ m ∈ before, m.bytes.length = 80) :
    (before ++ behind).find? (fun m => decide (m.bytes.length < 80)) = behind.find? fun m => decide (m.bytes.length < 80) := by
  rw [List.find?_append, List.find?_eq_none.mpr fun m hm => by simp [hwhole m hm], Option.none_or]

section
variable {s : State} {c : Fin 4} {z : Ctx} {b : Byte} {before behind : List Manifest} {i : Nat} {bs : List Byte}
  (hz : s.ctx c = some z) (hphase : z.phase = .header) (hstore : z.store = before ++ ⟨i, bs⟩ :: behind)
  (hgathers : Gathers before i behind) (hlen : bs.length = 79)

include hstore hgathers hlen in
theorem gathering_of_store : z.gathering = some ⟨i, bs⟩ := by
  rw [Ctx.gathering, hstore, find_short hgathers.whole]
  simp [hlen]

include hgathers in
/-- The byte joins the manifest of region `i` alone. -/
theorem map_append_byte :
    ((before ++ ⟨i, bs⟩ :: behind).map fun n => if n.region = i then (⟨n.region, n.bytes ++ [b]⟩ : Manifest) else n)
      = before ++ ⟨i, bs ++ [b]⟩ :: behind := by
  have hkept (ms : List Manifest) (h : ∀ m ∈ ms, m.region ≠ i) :
      (ms.map fun n => if n.region = i then (⟨n.region, n.bytes ++ [b]⟩ : Manifest) else n) = ms := by
    refine (List.map_congr_left fun m hm => if_neg (h m hm)).trans (List.map_id' ms)
  rw [List.map_append, List.map_cons, if_pos rfl, hkept _ hgathers.before_ne, hkept _ hgathers.behind_ne]

include hz hphase hstore hgathers hlen

theorem takeByte_eightieth : s.takeByte c b = (s.fill c z before i (bs ++ [b]) behind).manifestComplete c i := by
  have hnext : (before ++ ⟨i, bs ++ [b]⟩ :: behind).find? (fun m => decide (m.bytes.length < 80))
      = behind.find? fun m => decide (m.bytes.length < 80) := by
    rw [find_short hgathers.whole]
    simp [hlen]
  have hgathering := gathering_of_store hstore hgathers hlen
  simp only [State.takeByte, hz, hphase, Option.map_some, State.gather, hgathering, hlen, if_true, hstore, map_append_byte hgathers]
  simp only [Ctx.gathering, hnext, State.fill, Ctx.filled, State.nextManifest, hphase]

theorem completes_eightieth : s.completes c = true := by
  simp [State.completes, hz, hphase, gathering_of_store hstore hgathers hlen, hlen]

/-- The eightieth byte of a manifest brings its completion, after which the event closes (R24, R66). -/
theorem exec_eightieth {left : Nat} (hholder : s.fp.holder = .own (.burst c left)) :
    ∃ t, exec (.burstByteReceived b) s = .next t ∧ Closes ((s.fill c z before i (bs ++ [b]) behind).manifestComplete c i) t := by
  have hcount (u : State) : Closes u (u.countBurst c left) := by
    unfold State.countBurst
    split
    · split <;> exact closes_of_same rfl rfl rfl rfl fun _ => rfl
    · exact closes_of_same rfl rfl rfl rfl fun _ => rfl
  refine ⟨_, ?_, (hcount _).trans (settle_arbitrate_closes _)⟩
  rw [← takeByte_eightieth hz hphase hstore hgathers hlen]
  simp only [exec, execBurstByteReceived, hholder, completes_eightieth hz hphase hstore hgathers hlen, if_true]

end

theorem manifest_filled {z : Ctx} {before behind : List Manifest} {i : Nat} {bs : List Byte} {next : Nat}
    (hgathers : Gathers before i behind) : (z.filled before i bs behind next).manifest i = bs := by
  have hnone : before.find? (fun m => m.region == i) = none :=
    List.find?_eq_none.mpr fun m hm => by simp [hgathers.before_ne m hm]
  simp [Ctx.manifest, Ctx.filled, List.find?_append, hnone]

/-! ## The header check and what it brings -/

/-- What a verdict makes of the record of a region whose header check it is (R30, R31). -/
def Verdict.enter : Verdict → Runtime → Runtime
  | .pass m, t => { t with recorded := some m }
  | .fail reason, t => t.reject reason

theorem enter_fail_state (reason : Reason) (t : Runtime) : ((Verdict.fail reason).enter t).state ≠ .header := by
  simp [Verdict.enter, Runtime.reject]

section
variable {s : State} {c : Fin 4} {i : Nat} {x : Ctx} {r : Region} {t : Runtime}
  (hx : s.ctx c = some x) (hr : s.region i = some r) (ht : s.rt i = some t) (hstate : t.state = .header) (hc : t.context = some c)
  (htag : x.runTag = s.runNumber)
include hx hr ht hstate hc htag

/-- Under a region of its own the check passes on to the digest (R30). -/
theorem manifestComplete_pass {k : Nat} {m : Recorded} (howner : x.owner = .region k)
    (hpass : judgeManifest s.keys.slots s.keys.floors r (x.manifest i) = .pass m) :
    s.manifestComplete c i = (s.modRt i (Verdict.pass m).enter).beginDigest c i := by
  have hcheck : s.headerCheck c i = (s.modRt i (Verdict.pass m).enter).beginDigest c i := by
    simp only [State.headerCheck, hx, hr, ht, hstate, hc, htag, howner, hpass, and_self, if_true]
    rfl
  have hctx := ctx_beginDigest (s := s.modRt i (Verdict.pass m).enter) hx (rt_modRt_self _ ht) hr rfl
  simp only [State.manifestComplete, hcheck, hctx, howner]

/-- Under a region of its own a failed check releases the context (R31). -/
theorem manifestComplete_fail {k : Nat} {reason : Reason} (howner : x.owner = .region k)
    (hfail : judgeManifest s.keys.slots s.keys.floors r (x.manifest i) = .fail reason) :
    s.manifestComplete c i = (s.modRt i (Verdict.fail reason).enter).releaseCtx c := by
  have hcheck : s.headerCheck c i = (s.modRt i (Verdict.fail reason).enter).releaseCtx c := by
    simp only [State.headerCheck, hx, hr, ht, hstate, hc, htag, howner, hfail, and_self, if_true]
    rfl
  simp only [State.manifestComplete, hcheck, ctx_releaseCtx_self]

/-- Under a pair the check writes the region's record; with both manifests whole the ranking follows (R34, R45). -/
theorem manifestComplete_of_pair {j : Nat} (howner : x.owner = .pair j) :
    s.manifestComplete c i
      = if x.gathered then (s.modRt i (judgeManifest s.keys.slots s.keys.floors r (x.manifest i)).enter).rankPair j
        else s.modRt i (judgeManifest s.keys.slots s.keys.floors r (x.manifest i)).enter := by
  have hcheck : s.headerCheck c i = s.modRt i (judgeManifest s.keys.slots s.keys.floors r (x.manifest i)).enter := by
    simp only [State.headerCheck, hx, hr, ht, hstate, hc, htag, howner, and_self, if_true]
    cases judgeManifest s.keys.slots s.keys.floors r (x.manifest i) <;> rfl
  have hctx (f : Runtime → Runtime) : (s.modRt i f).ctx c = some x := hx
  simp only [State.manifestComplete, hcheck, hctx, howner]

end

/-! ## The ranking's outcome -/

theorem rankPair_of_nil {s : State} {j : Nat} {p : Pair} (hp : s.pair j = some p) (hrank : s.rank p = []) :
    s.rankPair j = (s.modPair j fun p => { p with order := [] }).failPair j := by
  simp only [State.rankPair, hp, hrank]

theorem rankPair_of_cons {s : State} {j : Nat} {p : Pair} {first : Slot} {rest : List Slot} (hp : s.pair j = some p)
    (hrank : s.rank p = first :: rest) :
    s.rankPair j = (s.modPair j fun p => { p with order := first :: rest }).tryCandidate j first .tryingFirst := by
  simp only [State.rankPair, hp, hrank]

theorem rankPair_sameWaiting (s : State) (j : Nat) : SameWaiting s (s.rankPair j) := by
  cases hp : s.pair j with
  | none =>
    simp only [State.rankPair, hp]
    exact SameWaiting.refl s
  | some p =>
    cases hrank : s.rank p with
    | nil =>
      rw [rankPair_of_nil hp hrank]
      refine SameWaiting.trans ?_ (failPair_sameWaiting _ j)
      exact modPair_sameWaiting fun _ => ⟨rfl, rfl⟩
    | cons first rest =>
      rw [rankPair_of_cons hp hrank]
      refine SameWaiting.trans ?_ (tryCandidate_sameWaiting _ j first .tryingFirst)
      exact modPair_sameWaiting fun _ => ⟨rfl, rfl⟩

/-- A slot that is out of HEADER and shows no context is left by the ranking. -/
theorem rt_rankPair_of_out {s : State} {j : Nat} {p : Pair} {slot : Slot} {t : Runtime} {c : Fin 4} (hp : s.pair j = some p)
    (hc : s.ctxOf (.pair j) = some c) (ht : s.rt (p.region slot) = some t) (hstate : t.state ≠ .header) (hnone : t.context = none) :
    (s.rankPair j).rt (p.region slot) = some t := by
  cases hrank : s.rank p with
  | nil =>
    rw [rankPair_of_nil hp hrank]
    exact rt_failPair j ht hnone
  | cons first rest =>
    have hheader := rank_header (hrank ▸ List.mem_cons_self : first ∈ s.rank p)
    have hne : p.region slot ≠ p.region first := by
      intro he
      obtain ⟨t', ht', hstate'⟩ := rstate_eq_some_iff.mp (he ▸ hheader)
      obtain rfl := Option.some.inj (ht.symm.trans ht')
      exact hstate hstate'
    have hordered := pair_modPair_self (fun p => { p with order := first :: rest }) hp
    rw [rankPair_of_cons hp hrank, rt_tryCandidate_of_ne hordered hc hne]
    exact ht

/-- The first candidate is tried (R45, R47). -/
theorem rankPair_tries {s : State} {j : Nat} {p : Pair} {first : Slot} {rest : List Slot} {c : Fin 4} {x : Ctx} {t : Runtime} {r : Region}
    {m : Recorded} (hp : s.pair j = some p) (hc : s.ctxOf (.pair j) = some c) (hx : s.ctx c = some x)
    (hrank : s.rank p = first :: rest) (ht : s.rt (p.region first) = some t) (hr : s.region (p.region first) = some r)
    (hm : t.recorded = some m) :
    (s.rankPair j).pair j = some { p with order := first :: rest, state := .tryingFirst, selection := first.selection }
      ∧ (s.rankPair j).rt (p.region first) = some { t with state := .hashing, progress := 0, context := some c }
      ∧ (s.rankPair j).ctx c = some { x with
          phase := .payload, digest := some (Digest.begin.absorbAll ((x.manifest (p.region first)).take 16)), nextRead := r.base + 256
          wanted := m.signedLength }
      ∧ (s.rankPair j).trans = s.windowsFor j p first.selection := by
  have hordered := pair_modPair_self (fun p => { p with order := first :: rest }) hp
  rw [rankPair_of_cons hp hrank]
  refine ⟨pair_tryCandidate hordered hc, rt_tryCandidate hordered hc hx ht, ctx_tryCandidate hordered hc hx ht hr hm, ?_⟩
  rw [trans_tryCandidate hordered hc]
  rfl

/-- The first candidate and those behind it, by the home slot's record and the alternate slot's verdict (R34). -/
def FirstCandidate (yh : Runtime) (verdict : Verdict) (first : Slot) (rest : List Slot) (m : Recorded) : Prop :=
  (∃ mh ma, (yh.state = .header ∧ yh.recorded = some mh) ∧ verdict = .pass ma
      ∧ ((mh.sequence < ma.sequence ∧ first = .alternate ∧ rest = [.home] ∧ m = ma)
        ∨ (ma.sequence ≤ mh.sequence ∧ first = .home ∧ rest = [.alternate] ∧ m = mh)))
    ∨ ((yh.state = .header ∧ yh.recorded = some m) ∧ (∃ reason, verdict = .fail reason) ∧ first = .home ∧ rest = [])
    ∨ ((yh.state = .rejected ∨ yh.state = .stale) ∧ verdict = .pass m ∧ first = .alternate ∧ rest = [])

theorem rank_of_firstCandidate {s : State} {p : Pair} {yh ya : Runtime} {verdict : Verdict} {first : Slot} {rest : List Slot}
    {m : Recorded} (hh : s.rt p.home = some yh) (ha : s.rt p.alternate = some (verdict.enter ya)) (hya : ya.state = .header)
    (hfirst : FirstCandidate yh verdict first rest m) :
    s.rank p = first :: rest
      ∧ s.rt (p.region first) = some { (if first = .home then yh else ya) with recorded := some m } := by
  have hrecord {t : Runtime} (ht : t.recorded = some m) : t = { t with recorded := some m } := by rw [← ht]
  obtain ⟨mh, ma, ⟨hstate, hmh⟩, rfl, h⟩ | ⟨⟨hstate, hmh⟩, ⟨reason, rfl⟩, rfl, rfl⟩ | ⟨hout, rfl, rfl, rfl⟩ := hfirst
  · obtain ⟨hboth, -⟩ := rank_of_records (mh := mh) (ma := ma) hh ha
    obtain ⟨halt, hhome⟩ := hboth hstate hya hmh rfl
    obtain ⟨hlt, rfl, rfl, rfl⟩ | ⟨hle, rfl, rfl, rfl⟩ := h
    · exact ⟨halt hlt, ha⟩
    · exact ⟨hhome hle, hh.trans (congrArg some (hrecord hmh))⟩
  · obtain ⟨-, halone, -⟩ := rank_of_records (mh := m) (ma := m) hh ha
    exact ⟨halone hstate hmh (.inl rfl), hh.trans (congrArg some (hrecord hmh))⟩
  · obtain ⟨-, -, halone, -⟩ := rank_of_records (mh := m) (ma := m) hh ha
    exact ⟨halone hya rfl hout, ha⟩

/-! ## An attempt of a region's own -/

section Own
variable {b : Byte} {s : State} {c : Fin 4} {left : Nat} {z : Ctx} {i : Nat} {bs : List Byte} {r : Region} {y : Runtime}
  (hholder : s.fp.holder = .own (.burst c left)) (hz : s.ctx c = some z) (hphase : z.phase = .header) (howner : z.owner = .region i)
  (hstore : z.store = [⟨i, bs⟩]) (hlen : bs.length = 79) (htag : z.runTag = s.runNumber) (hr : s.region i = some r)
  (hy : s.rt i = some y) (hstate : y.state = .header) (hc : y.context = some c) (hqueue : s.Unqueued i)
include hholder hz hphase howner hstore hlen htag hr hy hstate hc hqueue

theorem own_manifest_pass {m : Recorded} (hpass : judgeManifest s.keys.slots s.keys.floors r (bs ++ [b]) = .pass m) :
    ∃ t, exec (.burstByteReceived b) s = .next t ∧ (∀ j, t.pair j = s.pair j)
      ∧ t.rt i = some { y with state := .hashing, recorded := some m, progress := 0 }
      ∧ t.ctx c = some { z with
          phase := .payload, digest := some (Digest.begin.absorbAll (bs.take 16)), store := [⟨i, bs ++ [b]⟩]
          nextRead := r.base + 256, wanted := m.signedLength } := by
  obtain ⟨t, hexec, hclose⟩ := exec_eightieth (b := b) hz hphase hstore (gathers_alone i) hlen hholder
  have hmanifest := manifest_filled (z := z) (bs := bs ++ [b]) (next := s.nextManifest z []) (gathers_alone i)
  have hx := ctx_fill s c z [] i (bs ++ [b]) []
  have hentered : ((s.fill c z [] i (bs ++ [b]) []).modRt i (Verdict.pass m).enter).rt i = _ := rt_modRt_self _ hy
  have hdigest := ctx_beginDigest (s := (s.fill c z [] i (bs ++ [b]) []).modRt i (Verdict.pass m).enter) hx hentered hr rfl
  rw [manifestComplete_pass hx hr hy hstate hc htag howner (hmanifest ▸ hpass)] at hclose
  rw [hmanifest, List.take_append_of_le_length (by omega)] at hdigest
  have hsame := ((fill_sameWaiting s c z [] i (bs ++ [b]) []).trans (modRt_sameWaiting _ i (Verdict.pass m).enter)).trans
    (beginDigest_sameWaiting _ c i)
  refine ⟨t, hexec, fun j => (hclose.pair j).trans ?_, (hclose.rt i (hsame.unqueued hqueue)).trans ?_, hclose.held _ _ hdigest⟩
  · rw [beginDigest_eq]
    rfl
  · rw [rt_beginDigest (s := (s.fill c z [] i (bs ++ [b]) []).modRt i (Verdict.pass m).enter) hx hentered, ← hc]
    rfl

theorem own_manifest_fail {reason : Reason} (hfail : judgeManifest s.keys.slots s.keys.floors r (bs ++ [b]) = .fail reason) :
    ∃ t, exec (.burstByteReceived b) s = .next t ∧ (∀ j, t.pair j = s.pair j)
      ∧ t.rt i = some { y with state := .rejected, reason := some reason, context := none }
      ∧ ∀ z', t.ctx c = some z' → z'.owner ≠ .region i := by
  obtain ⟨t, hexec, hclose⟩ := exec_eightieth (b := b) hz hphase hstore (gathers_alone i) hlen hholder
  have hmanifest := manifest_filled (z := z) (bs := bs ++ [b]) (next := s.nextManifest z []) (gathers_alone i)
  have hx := ctx_fill s c z [] i (bs ++ [b]) []
  have hentered : ((s.fill c z [] i (bs ++ [b]) []).modRt i (Verdict.fail reason).enter).rt i = _ := rt_modRt_self _ hy
  rw [manifestComplete_fail hx hr hy hstate hc htag howner (hmanifest ▸ hfail)] at hclose
  refine ⟨t, hexec, fun j => hclose.pair j, (hclose.rt i hqueue).trans ?_, fun z' hz' hown => ?_⟩
  · rw [rt_releaseCtx, hentered]
    rfl
  · obtain hheld | hqueued := hclose.granted c z' hz'
    · rw [ctx_releaseCtx_self] at hheld
      cases hheld
    · exact hqueue _ hqueued (hown ▸ List.mem_singleton_self i)

end Own

/-! ## A manifest of a pair's context -/

section Home
variable {b : Byte} {s : State} {c : Fin 4} {left : Nat} {z : Ctx} {j : Nat} {p : Pair} {bh ba : List Byte} {h a : Region} {y : Runtime}
  (hholder : s.fp.holder = .own (.burst c left)) (hz : s.ctx c = some z) (hphase : z.phase = .header) (howner : z.owner = .pair j)
  (hregions : p.home ≠ p.alternate) (hstore : z.store = [⟨p.home, bh⟩, ⟨p.alternate, ba⟩]) (hbh : bh.length = 79)
  (hba : ba.length < 80) (htag : z.runTag = s.runNumber) (hh : s.region p.home = some h) (ha : s.region p.alternate = some a)
  (hy : s.rt p.home = some y) (hstate : y.state = .header) (hc : y.context = some c) (hqueue : s.Unqueued p.home)
include hholder hz hphase howner hregions hstore hbh hba htag hh ha hy hstate hc hqueue

/-- The home slot's verdict stands in its record, and the context goes on to the alternate slot (R61). -/
theorem home_manifest : ∃ t, exec (.burstByteReceived b) s = .next t ∧ (∀ k, t.pair k = s.pair k)
    ∧ t.ctx c = some { z with store := [⟨p.home, bh ++ [b]⟩, ⟨p.alternate, ba⟩], nextRead := a.base, wanted := z.wanted - 1 }
    ∧ t.rt p.home = some ((judgeManifest s.keys.slots s.keys.floors h (bh ++ [b])).enter y) := by
  have hgathers := gathers_home hregions ba
  obtain ⟨t, hexec, hclose⟩ := exec_eightieth (b := b) hz hphase hstore hgathers hbh hholder
  have hnext : s.nextManifest z [⟨p.alternate, ba⟩] = a.base := by simp [State.nextManifest, hba, State.base, ha]
  have hx := ctx_fill s c z [] p.home (bh ++ [b]) [⟨p.alternate, ba⟩]
  rw [hnext] at hx
  have hgathered : (z.filled [] p.home (bh ++ [b]) [⟨p.alternate, ba⟩] a.base).gathered = false := by
    simp [Ctx.gathered, Ctx.filled, hbh, hba.ne]
  rw [manifestComplete_of_pair hx hh hy hstate hc htag howner, hgathered, if_neg Bool.false_ne_true, manifest_filled hgathers] at hclose
  exact ⟨t, hexec, hclose.pair, hclose.held _ _ hx, (hclose.rt _ hqueue).trans (rt_modRt_self _ hy)⟩

end Home

section Alternate
variable {b : Byte} {s : State} {c : Fin 4} {left : Nat} {z : Ctx} {j : Nat} {p : Pair} {bh ba : List Byte} {h a : Region}
  {yh ya : Runtime}
  (hholder : s.fp.holder = .own (.burst c left)) (hof : s.ctxOf (.pair j) = some c) (hz : s.ctx c = some z) (hphase : z.phase = .header)
  (howner : z.owner = .pair j) (hp : s.pair j = some p) (hregions : p.home ≠ p.alternate)
  (hstore : z.store = [⟨p.home, bh⟩, ⟨p.alternate, ba⟩]) (hbh : bh.length = 80) (hba : ba.length = 79)
  (htag : z.runTag = s.runNumber) (hh : s.region p.home = some h) (ha : s.region p.alternate = some a)
  (hyh : s.rt p.home = some yh) (hya : s.rt p.alternate = some ya) (hstate : ya.state = .header) (hc : ya.context = some c)

/-- The state after the alternate slot's header check, the ranking still to come. -/
def State.judged (s : State) (c : Fin 4) (z : Ctx) (p : Pair) (bh ba : List Byte) (verdict : Verdict) : State :=
  (s.fill c z [⟨p.home, bh⟩] p.alternate ba []).modRt p.alternate verdict.enter

theorem judged_sameWaiting (s : State) (c : Fin 4) (z : Ctx) (p : Pair) (bh ba : List Byte) (verdict : Verdict) :
    SameWaiting s (s.judged c z p bh ba verdict) :=
  (fill_sameWaiting s c z _ _ ba []).trans (modRt_sameWaiting _ _ _)

theorem ctx_judged (s : State) (c : Fin 4) (z : Ctx) (p : Pair) (bh ba : List Byte) (verdict : Verdict) :
    (s.judged c z p bh ba verdict).ctx c = some (z.filled [⟨p.home, bh⟩] p.alternate ba [] (z.nextRead + 1)) :=
  ctx_fill s c z _ _ ba []

include hof hz in
theorem ctxOf_judged (verdict : Verdict) : (s.judged c z p bh ba verdict).ctxOf (.pair j) = some c :=
  (ctxOf_setCtx (x := z.filled [⟨p.home, bh⟩] p.alternate ba [] _) hz rfl (.pair j)).trans hof

include hya in
theorem rt_judged_alternate (verdict : Verdict) : (s.judged c z p bh ba verdict).rt p.alternate = some (verdict.enter ya) :=
  rt_modRt_self _ hya

include hyh hregions in
theorem rt_judged_home (verdict : Verdict) : (s.judged c z p bh ba verdict).rt p.home = some yh :=
  (rt_modRt_of_ne _ hregions).trans hyh

include hholder hz hphase howner hregions hstore hbh hba htag ha hya hstate hc in
/-- The alternate slot's check and the ranking come in one event (R34, R45). -/
theorem exec_alternate_manifest : ∃ t, exec (.burstByteReceived b) s = .next t
    ∧ Closes ((s.judged c z p bh (ba ++ [b]) (judgeManifest s.keys.slots s.keys.floors a (ba ++ [b]))).rankPair j) t := by
  have hgathers := gathers_alternate hregions hbh
  obtain ⟨t, hexec, hclose⟩ := exec_eightieth (b := b) hz hphase hstore hgathers hba hholder
  have hx := ctx_fill s c z [⟨p.home, bh⟩] p.alternate (ba ++ [b]) []
  have hgathered (n : Nat) : (z.filled [⟨p.home, bh⟩] p.alternate (ba ++ [b]) [] n).gathered = true := by
    simp [Ctx.gathered, Ctx.filled, hbh, hba]
  rw [manifestComplete_of_pair hx ha hya hstate hc htag howner, hgathered, if_pos rfl, manifest_filled hgathers] at hclose
  exact ⟨t, hexec, hclose⟩

section
variable {t : State} {verdict : Verdict} (hclose : Closes ((s.judged c z p bh ba verdict).rankPair j) t)
include hclose hof hz hp

/-- A failed check of the alternate slot stands, whatever the ranking brings (R31). -/
theorem ranked_alternate_fail {reason : Reason} (hya : s.rt p.alternate = some ya) (hqueue : s.Unqueued p.alternate)
    (hverdict : verdict = .fail reason) :
    t.rt p.alternate = some { ya with state := .rejected, reason := some reason, context := none } := by
  subst hverdict
  have hsame := (judged_sameWaiting s c z p bh ba (.fail reason)).trans (rankPair_sameWaiting _ j)
  exact (hclose.rt _ (hsame.unqueued hqueue)).trans
    (rt_rankPair_of_out (slot := .alternate) hp (ctxOf_judged hof hz _) (rt_judged_alternate hya _) (enter_fail_state _ _) rfl)

/-- With no slot passed the pair is FAILED and its context released (R46, R50). -/
theorem ranked_none {reason : Reason} (hregions : p.home ≠ p.alternate) (hyh : s.rt p.home = some yh)
    (hya : s.rt p.alternate = some ya) (hqueue : s.Unqueued p.home) (hout : yh.state = .rejected ∨ yh.state = .stale)
    (hverdict : verdict = .fail reason) :
    t.pair j = some { p with order := [], state := .failed, selection := .none } ∧ ∀ z', t.ctx c = some z' → z'.owner ≠ .pair j := by
  subst hverdict
  have hsame := (judged_sameWaiting s c z p bh ba (.fail reason)).trans (rankPair_sameWaiting _ j)
  have hrank : (s.judged c z p bh ba (.fail reason)).rank p = [] :=
    rank_of_none (passed_of_not_header (slot := .home) (rt_judged_home hregions hyh _) (ne_header_of_out hout))
      (passed_of_not_header (slot := .alternate) (rt_judged_alternate hya _) (enter_fail_state _ _))
  have hfails := rankPair_of_nil (s := s.judged c z p bh ba (.fail reason)) hp hrank
  have hordered := pair_modPair_self (s := s.judged c z p bh ba (.fail reason)) (fun p => { p with order := [] }) hp
  refine ⟨(hclose.pair j).trans (hfails ▸ pair_failPair hordered), fun z' hz' hown => ?_⟩
  have hreleased : ((s.judged c z p bh ba (.fail reason)).rankPair j).ctx c = none :=
    hfails ▸ ctx_failPair (ctxOf_judged hof hz (.fail reason))
  obtain hheld | hqueued := hclose.granted c z' hz'
  · rw [hreleased] at hheld
    cases hheld
  · refine hqueue (.pair j) (hsame.queue ▸ hown ▸ hqueued) ?_
    simp [State.ownerRegions, hp]

/-- The first candidate is selected and HASHING, and the translation list follows the selection (R9, R40, R47). -/
theorem ranked_first {first : Slot} {rest : List Slot} {m : Recorded} {f : Region} {y : Runtime} (hregions : p.home ≠ p.alternate)
    (hbh : bh.length = 80) (hh : s.region p.home = some h) (ha : s.region p.alternate = some a) (hyh : s.rt p.home = some yh)
    (hya : s.rt p.alternate = some ya) (hstate : ya.state = .header) (hqueue : s.Unqueued p.home) (hqueue' : s.Unqueued p.alternate)
    (hfirst : FirstCandidate yh verdict first rest m) (hf : f = if first = .home then h else a)
    (hy : y = if first = .home then yh else ya) :
    t.pair j = some { p with order := first :: rest, state := .tryingFirst, selection := first.selection }
      ∧ t.rt (p.region first) = some { y with state := .hashing, recorded := some m, progress := 0, context := some c }
      ∧ t.ctx c = some { z with
          store := [⟨p.home, bh⟩, ⟨p.alternate, ba⟩], phase := .payload
          digest := some (Digest.begin.absorbAll ((if first = .home then bh else ba).take 16)), nextRead := f.base + 256
          wanted := m.signedLength }
      ∧ ((∀ w ∈ t.trans, w.cause ≠ .recovery) →
          (first = .alternate → exchanges h.base a.base h.length .pair (some j) t.trans)
            ∧ (first = .home → ∀ w ∈ t.trans, w.ofPair j = false)) := by
  have hsame := (judged_sameWaiting s c z p bh ba verdict).trans (rankPair_sameWaiting _ j)
  obtain ⟨hrank, hrecorded⟩ := rank_of_firstCandidate (rt_judged_home hregions hyh verdict) (rt_judged_alternate hya verdict) hstate hfirst
  have hregion : s.region (p.region first) = some f := by subst hf; cases first; exacts [hh, ha]
  have hunqueued : s.Unqueued (p.region first) := by cases first; exacts [hqueue, hqueue']
  have hmanifest : (z.filled [⟨p.home, bh⟩] p.alternate ba [] (z.nextRead + 1)).manifest (p.region first)
      = if first = .home then bh else ba := by
    cases first with
    | home => simp [Ctx.manifest, Ctx.filled, Pair.region]
    | alternate => exact manifest_filled (gathers_alternate hregions hbh)
  obtain ⟨hpair, hrt, hctx, htrans⟩ := rankPair_tries (s := s.judged c z p bh ba verdict) hp (ctxOf_judged hof hz verdict)
    (ctx_judged s c z p bh ba verdict) hrank hrecorded hregion rfl
  rw [hmanifest] at hctx
  refine ⟨(hclose.pair j).trans hpair, (hclose.rt _ (hsame.unqueued hunqueued)).trans (hy ▸ hrt), hclose.held _ _ hctx, fun hno => ?_⟩
  have hoff : recoveryPresent t.trans = false := by simpa [recoveryPresent] using hno
  have hlist : t.trans = s.windowsFor j p first.selection := (hclose.windows hoff).trans htrans
  have hoff' : recoveryPresent s.trans = false := by rwa [hlist, recoveryPresent_windowsFor] at hoff
  rw [hlist]
  refine ⟨fun halt => ?_, fun hhome w hw => ?_⟩
  · subst halt
    exact windowsFor_alternate j hh ha hoff' ▸ exchanges_installSwap h.base a.base h.length .pair (some j) _
  · subst hhome
    have hdropped : w ∈ dropPair j s.trans := windowsFor_home s j p ▸ hw
    exact ((mem_dropPair j w _).mp hdropped).2

end

end Alternate

/-- Settles O39: an attempt of a region's own by its verdict, the home slot of a pair by its check, and the alternate slot by its check and
the ranking. -/
theorem theLastManifestByteBringsTheHeaderCheck : Obligations.TheLastManifestByteBringsTheHeaderCheck := by
  refine ⟨?_, ?_, ?_⟩
  · intro b s c left z i bs r y hholder hz hphase howner hstore hlen htag hr hy hstate hc _ hqueue
    cases hverdict : judgeManifest s.keys.slots s.keys.floors r (bs ++ [b]) with
    | pass m =>
      obtain ⟨t, hexec, hpairs, hpass⟩ := own_manifest_pass hholder hz hphase howner hstore hlen htag hr hy hstate hc hqueue hverdict
      exact ⟨t, hexec, hpairs, fun m' hm' => Verdict.pass.inj hm' ▸ hpass, nofun⟩
    | fail reason =>
      obtain ⟨t, hexec, hpairs, hfail⟩ := own_manifest_fail hholder hz hphase howner hstore hlen htag hr hy hstate hc hqueue hverdict
      exact ⟨t, hexec, hpairs, nofun, fun reason' hr' => Verdict.fail.inj hr' ▸ hfail⟩
  · intro b s c left z j p bh ba h a y hholder hz hphase howner hp hregions hstore hbh hba htag hh ha hy hstate hc hqueue
    obtain ⟨t, hexec, hpairs, hctx, hrt⟩ :=
      home_manifest (b := b) hholder hz hphase howner hregions hstore hbh hba htag hh ha hy hstate hc hqueue
    exact ⟨t, hexec, (hpairs j).trans hp, hctx, fun m hm => by rw [hrt, hm]; rfl, fun reason hr => by rw [hrt, hr]; rfl⟩
  · intro b s c left z j p bh ba h a yh ya hholder hof hz hphase howner hp hregions hstore hbh hba htag hh ha hyh hya hstate hc hqueue
      verdict homePassed homeOut
    have hhome : s.Unqueued p.home := fun o ho => (hqueue o ho).1
    have halternate : s.Unqueued p.alternate := fun o ho => (hqueue o ho).2
    obtain ⟨t, hexec, hclose⟩ :=
      exec_alternate_manifest (b := b) hholder hz hphase howner hregions hstore hbh hba htag ha hya hstate hc
    refine ⟨t, hexec, fun reason hfail => ranked_alternate_fail hof hz hp hclose hya halternate hfail,
      fun reason hout hfail => ranked_none hof hz hp hclose hregions hyh hya hhome hout hfail,
      fun first rest m f y hfirst hf hy => ?_⟩
    have hfields : (if first = .home then bh else ba ++ [b]).take 16 = (if first = .home then bh else ba).take 16 := by
      split
      · rfl
      · exact List.take_append_of_le_length (by omega)
    have hranked := ranked_first hof hz hp hclose hregions hbh hh ha hyh hya hstate hhome halternate hfirst hf hy
    rwa [hfields] at hranked

end Sys2Proof.Machine
end

section
/-! PROOFS. Which steps can make a region VERIFIED (R42): every operation of the verifier but the application of a check result leaves no
region VERIFIED that was not. -/

namespace Sys2Proof.Machine

/-! ## Operations that verify no region -/

/-- From `s` to `t` no region becomes VERIFIED. -/
def VerifiesNone (s t : State) : Prop := ∀ i, t.isVerified i = true → s.isVerified i = true

theorem VerifiesNone.refl (s : State) : VerifiesNone s s := fun _ => id

theorem VerifiesNone.trans {s t u : State} (h : VerifiesNone s t) (h' : VerifiesNone t u) : VerifiesNone s u := fun i hi => h i (h' i hi)

theorem VerifiesNone.of_runtime {s t : State} (h : t.runtime = s.runtime) : VerifiesNone s t := fun i hi => by
  simpa only [State.isVerified, State.rstate, rt_congr h] using hi

theorem VerifiesNone.foldl {α : Type} {f : State → α → State} (h : ∀ s a, VerifiesNone s (f s a)) (l : List α) (s : State) :
    VerifiesNone s (l.foldl f s) := by
  induction l generalizing s with
  | nil => exact .refl s
  | cons a l ih => exact (h s a).trans (ih (f s a))

/-- Rewriting a record verifies none, unless it moves the record to VERIFIED. -/
theorem modRt_verifiesNone (s : State) (i : Nat) {f : Runtime → Runtime} (h : ∀ t, (f t).state = .verified → t.state = .verified) :
    VerifiesNone s (s.modRt i f) := by
  intro k hk
  obtain ⟨t, ht, hstate⟩ := (isVerified_iff _ k).mp hk
  rw [rt_modRt] at ht
  split at ht
  · obtain ⟨u, hu, rfl⟩ := Option.map_eq_some_iff.mp ht
    exact (isVerified_iff s k).mpr ⟨u, hu, h u hstate⟩
  · exact (isVerified_iff s k).mpr ⟨t, ht, hstate⟩

theorem releaseCtx_verifiesNone (s : State) (c : Fin 4) : VerifiesNone s (s.releaseCtx c) := by
  intro k hk
  obtain ⟨t, ht, hstate⟩ := (isVerified_iff _ k).mp hk
  rw [rt_releaseCtx] at ht
  obtain ⟨u, hu, rfl⟩ := Option.map_eq_some_iff.mp ht
  refine (isVerified_iff s k).mpr ⟨u, hu, ?_⟩
  split at hstate <;> exact hstate

theorem releaseOwner_verifiesNone (s : State) (o : Owner) : VerifiesNone s (s.releaseOwner o) := by
  unfold State.releaseOwner
  split
  · exact releaseCtx_verifiesNone s _
  · exact .refl s

theorem markStale_verifiesNone (s : State) (i : Nat) : VerifiesNone s (s.modRt i Runtime.markStale) :=
  modRt_verifiesNone s i fun _ h => by simp [Runtime.markStale] at h

theorem reject_verifiesNone (s : State) (i : Nat) (reason : Reason) : VerifiesNone s (s.modRt i (Runtime.reject reason)) :=
  modRt_verifiesNone s i fun _ h => by simp [Runtime.reject] at h

theorem beginDigest_verifiesNone (s : State) (c : Fin 4) (i : Nat) : VerifiesNone s (s.beginDigest c i) := by
  unfold State.beginDigest
  split
  · exact VerifiesNone.trans (.of_runtime rfl) (modRt_verifiesNone (s.setCtx c _) i (by simp))
  · exact .refl s

theorem setSelection_verifiesNone (s : State) (j : Nat) (sel : Selection) : VerifiesNone s (s.setSelection j sel) :=
  .of_runtime (by rw [setSelection_eq])

theorem failPair_verifiesNone (s : State) (j : Nat) : VerifiesNone s (s.failPair j) :=
  (setSelection_verifiesNone s j .none).trans (releaseOwner_verifiesNone ((s.setSelection j .none).modPair j _) (.pair j))

theorem tryCandidate_verifiesNone (s : State) (j : Nat) (slot : Slot) (st : PairState) : VerifiesNone s (s.tryCandidate j slot st) := by
  unfold State.tryCandidate
  split
  · exact (setSelection_verifiesNone s j slot.selection).trans (beginDigest_verifiesNone ((s.setSelection j _).modPair j _) _ _)
  · exact .refl s

theorem rankPair_verifiesNone (s : State) (j : Nat) : VerifiesNone s (s.rankPair j) := by
  unfold State.rankPair
  split
  · exact .refl s
  · split
    · exact failPair_verifiesNone (s.modPair j _) j
    · exact tryCandidate_verifiesNone (s.modPair j _) j _ _

theorem candidateVerified_verifiesNone (s : State) (j : Nat) : VerifiesNone s (s.candidateVerified j) := by
  cases hp : s.pair j with
  | none =>
    simp only [State.candidateVerified, hp]
    exact .refl s
  | some p =>
    cases hw : s.waiting p with
    | none =>
      rw [candidateVerified_of_last hp hw]
      exact releaseOwner_verifiesNone (s.modPair j _) (.pair j)
    | some w =>
      rw [candidateVerified_of_waiting hp hw]
      have huntried : VerifiesNone s (s.modRt (p.region w) Runtime.untried) := modRt_verifiesNone s _ (by simp [Runtime.untried])
      exact huntried.trans (releaseOwner_verifiesNone ((s.modRt (p.region w) Runtime.untried).modPair j _) (.pair j))

theorem candidateRejected_verifiesNone (s : State) (j : Nat) : VerifiesNone s (s.candidateRejected j) := by
  cases hp : s.pair j with
  | none =>
    simp only [State.candidateRejected, hp]
    exact .refl s
  | some p =>
    cases hw : s.waiting p with
    | none =>
      rw [candidateRejected_of_last hp hw]
      exact failPair_verifiesNone s j
    | some w =>
      rw [candidateRejected_of_waiting hp hw]
      exact tryCandidate_verifiesNone (s.modPair j _) j w .tryingSecond

theorem headerCheck_verifiesNone (s : State) (c : Fin 4) (i : Nat) : VerifiesNone s (s.headerCheck c i) := by
  have hrecord (m : Recorded) : VerifiesNone s (s.modRt i fun t => { t with recorded := some m }) := modRt_verifiesNone s i fun _ => id
  unfold State.headerCheck
  split
  · split
    · split
      · exact (hrecord _).trans (beginDigest_verifiesNone _ c i)
      · exact hrecord _
      · exact (reject_verifiesNone s i _).trans (releaseCtx_verifiesNone _ c)
      · exact reject_verifiesNone s i _
    · exact .refl s
  · exact .refl s

theorem manifestComplete_verifiesNone (s : State) (c : Fin 4) (i : Nat) : VerifiesNone s (s.manifestComplete c i) := by
  have hcheck := headerCheck_verifiesNone s c i
  unfold State.manifestComplete
  dsimp only
  split
  · split
    · split
      · exact hcheck.trans (rankPair_verifiesNone _ _)
      · exact hcheck
    · exact hcheck
  · exact hcheck

theorem gather_verifiesNone (s : State) (c : Fin 4) (b : Byte) : VerifiesNone s (s.gather c b) := by
  unfold State.gather
  split
  · exact .refl s
  · split
    · exact .refl s
    · dsimp only
      split
      · exact manifestComplete_verifiesNone (s.setCtx c _) c _
      · exact .of_runtime rfl

theorem completeDigest_verifiesNone (s : State) (c : Fin 4) (i : Nat) : VerifiesNone s (s.completeDigest c i) := by
  have hsigning : VerifiesNone s (s.modRt i fun r => { r with state := .signing, context := none }) :=
    modRt_verifiesNone s i (by simp)
  unfold State.completeDigest
  split
  · dsimp only
    split
    · exact hsigning.trans (releaseCtx_verifiesNone _ c)
    · split
      · exact hsigning.trans (.of_runtime rfl)
      · exact hsigning.trans (releaseCtx_verifiesNone _ c)
  · exact .refl s

theorem absorb_verifiesNone (s : State) (c : Fin 4) (i : Nat) (b : Byte) (seen : Bool) : VerifiesNone s (s.absorb c i b seen) := by
  unfold State.absorb
  split
  · dsimp only
    split
    · exact VerifiesNone.trans (by exact modRt_verifiesNone (s.setCtx c _) i fun _ => id) (completeDigest_verifiesNone _ c i)
    · exact modRt_verifiesNone (s.setCtx c _) i fun _ => id
  · exact .refl s

theorem dropWaiting_verifiesNone (s : State) (j : Nat) (slot : Slot) (i : Nat) : VerifiesNone s (s.dropWaiting j slot i) := by
  unfold State.dropWaiting
  split
  · exact .refl s
  · dsimp only
    split
    · exact VerifiesNone.trans (.of_runtime (by split <;> rfl)) (releaseOwner_verifiesNone _ _)
    · exact .of_runtime (by split <;> rfl)

theorem staleInProgress_verifiesNone (s : State) (i : Nat) : VerifiesNone s (s.staleInProgress i) := by
  have hstale := markStale_verifiesNone s i
  unfold State.staleInProgress
  dsimp only
  split
  · exact hstale.trans (releaseOwner_verifiesNone _ _)
  · split
    · exact hstale
    · split
      case h_1 | h_2 => exact hstale.trans (releaseOwner_verifiesNone _ _)
      case h_3 => exact hstale
      case h_4 | h_5 =>
        split
        · exact hstale.trans (candidateRejected_verifiesNone _ _)
        · split
          · exact hstale.trans (dropWaiting_verifiesNone _ _ _ _)
          · exact hstale

theorem staleRegion_verifiesNone (s : State) (i : Nat) : VerifiesNone s (s.staleRegion i) := by
  have hstale := markStale_verifiesNone s i
  unfold State.staleRegion
  split
  case h_1 | h_2 | h_3 | h_4 => exact .refl s
  case h_5 | h_6 => exact staleInProgress_verifiesNone s i
  case h_7 =>
    dsimp only
    split
    · exact hstale.trans (candidateRejected_verifiesNone ((s.modRt i Runtime.markStale).withdraw i) _)
    · exact hstale
  case h_8 | h_9 => exact hstale

theorem rejectOverdue_verifiesNone (s : State) (i : Nat) : VerifiesNone s (s.rejectOverdue i) :=
  (releaseOwner_verifiesNone s (.region i)).trans (reject_verifiesNone _ i .deadline)

theorem expire_verifiesNone (s : State) : VerifiesNone s s.expire := by
  unfold State.expire
  dsimp only
  refine VerifiesNone.trans (VerifiesNone.trans ?_ (.foldl rejectOverdue_verifiesNone _ _)) (.foldl failPair_verifiesNone _ _)
  exact .of_runtime rfl

theorem newAttempt_verifiesNone (s : State) (i : Nat) : VerifiesNone s (s.newAttempt i) :=
  modRt_verifiesNone s i (f := fun _ => Runtime.fresh s.runNumber .queued) (by simp [Runtime.fresh])

/-! ## The closing of an event, and a run start -/

theorem grantOne_verifiesNone (s : State) : VerifiesNone s s.grantOne := by
  unfold State.grantOne
  split
  · rename_i o rest c _ _
    refine VerifiesNone.trans (.of_runtime rfl) (.foldl (fun t i => ?_) (s.ownerRegions o) { s.setCtx c _ with queue := rest })
    exact modRt_verifiesNone t i (by simp)
  · exact .refl s

theorem settle_verifiesNone (s : State) : VerifiesNone s s.settle := by
  have hgrants : VerifiesNone s s.grants :=
    (((grantOne_verifiesNone s).trans (grantOne_verifiesNone _)).trans (grantOne_verifiesNone _)).trans (grantOne_verifiesNone _)
  exact hgrants.trans (.of_runtime (by simp [State.settle]))

theorem VerifiesNone.settle {s t : State} (h : VerifiesNone s t) : VerifiesNone s t.settle := h.trans (settle_verifiesNone t)

theorem VerifiesNone.arbitrate {s t : State} (h : VerifiesNone s t) : VerifiesNone s t.arbitrate := h.trans (.of_runtime (by simp))

theorem newRun_rt (s : State) (cause : StartCause) (i : Nat) : (s.newRun cause).rt i
    = (s.region i).bind fun r => if r.verifiable then some (Runtime.fresh (nextRun s.runNumber) .queued) else none := by
  cases h : s.regions[i]? <;> simp [State.rt, State.newRun, State.region, h]

/-- After a run start no region is VERIFIED. -/
theorem newRun_isVerified (s : State) (cause : StartCause) (i : Nat) : (s.newRun cause).isVerified i = false := by
  rw [State.isVerified, State.rstate, newRun_rt]
  cases s.region i with
  | none => rfl
  | some r => cases h : r.verifiable <;> simp [h, Runtime.fresh]

theorem runStart_verifiesNone (s u : State) (cause : StartCause) : VerifiesNone s (u.runStart cause) := by
  refine VerifiesNone.settle fun i hi => ?_
  rw [show (u.newRun cause).drive.isVerified i = (u.newRun cause).isVerified i from rfl, newRun_isVerified] at hi
  cases hi

/-! ## The commands -/

theorem VerifiesNone.of_tables {s t : State} (h : t.tables = s.tables) : VerifiesNone s t := .of_runtime (congrArg Tables.runtime h)

/-- Empty tables show no VERIFIED region. -/
theorem VerifiesNone.of_empty {s t : State} (h : t.runtime = []) : VerifiesNone s t := fun i hi => by
  simp [State.isVerified, State.rstate, State.rt, h] at hi

theorem afterLoad_verifiesNone (s : State) : VerifiesNone s s.afterLoad := by
  unfold State.afterLoad
  split
  · split
    · exact runStart_verifiesNone s _ _
    · exact .of_runtime rfl
  · split
    · exact .of_runtime rfl
    · split <;> exact .of_runtime rfl

theorem execLoadComplete_verifiesNone {s t : State} (h : execLoadComplete s = .next t) : VerifiesNone s t := by
  unfold execLoadComplete at h
  split at h <;> cases h
  · exact .refl s
  · rename_i reads _
    have hload := afterLoad_verifiesNone { s with load := .none, store := s.store.resolve reads }
    exact (VerifiesNone.trans hload (.of_tables (settleMode_tables _))).arbitrate

theorem burnNext_verifiesNone {s u : State} (want : Store) (h : u.runtime = s.runtime) : VerifiesNone s (u.burnNext want).drive := by
  unfold State.burnNext
  split <;> exact .of_runtime h

theorem execBootstrapReadComplete_verifiesNone {s t : State} {image : List Byte} (h : execBootstrapReadComplete image s = .next t) :
    VerifiesNone s t := by
  unfold execBootstrapReadComplete at h
  dsimp only at h
  split at h
  · split at h
    · cases h
      exact .of_runtime rfl
    · split at h
      · cases h
        exact .of_runtime rfl
      · obtain rfl := Host.Outcome.next.inj h
        exact burnNext_verifiesNone _ rfl
  · cases h
    exact .refl s

theorem execProvisionCellBurnComplete_verifiesNone {s t : State} (h : execProvisionCellBurnComplete s = .next t) :
    VerifiesNone s t := by
  unfold execProvisionCellBurnComplete at h
  split at h
  · obtain rfl := Host.Outcome.next.inj h
    exact burnNext_verifiesNone _ rfl
  all_goals
    cases h
    exact .refl s

theorem wire_verifiesNone (s : State) (bs : List Byte) : VerifiesNone s (s.wire bs) := by
  obtain ⟨-, -, he⟩ | ⟨-, he⟩ := wire_cases s bs <;> rw [he] <;> exact .of_runtime rfl

theorem execUpstreamSelectAssert_verifiesNone {s t : State} (h : execUpstreamSelectAssert s = .next t) : VerifiesNone s t := by
  unfold execUpstreamSelectAssert at h
  dsimp only at h
  split at h
  · cases h
    exact .refl s
  · split at h <;> cases h <;> exact .of_runtime rfl

theorem classify_verifiesNone (s : State) (x : Tx) (b : Byte) (e : ClassEntry) : VerifiesNone s (s.classify x b e) := by
  unfold State.classify
  dsimp only
  split
  case h_2 => exact .of_runtime rfl
  case h_3 | h_4 | h_5 => split <;> exact .of_tables (by simp)
  all_goals exact .of_tables (by simp)

theorem execInstructionByteComplete_verifiesNone {s t : State} {b : Byte} (h : execInstructionByteComplete b s = .next t) :
    VerifiesNone s t := by
  unfold execInstructionByteComplete at h
  split at h
  · split at h <;> cases h
    · exact classify_verifiesNone s _ _ _
    · exact .refl s
  · cases h
    exact wire_verifiesNone s _

theorem address_verifiesNone (s : State) (x : Tx) (e : ClassEntry) (a : BitVec 32) : VerifiesNone s (s.address x e a) := by
  unfold State.address State.addressRead State.addressWrite
  dsimp only
  split
  case h_1 | h_2 | h_3 | h_4 => split <;> exact .of_tables (by simp)
  all_goals exact .of_tables (by simp)

theorem execAddressComplete_verifiesNone {s t : State} {a : BitVec 32} (h : execAddressComplete a s = .next t) : VerifiesNone s t := by
  unfold execAddressComplete at h
  split at h
  · split at h <;> cases h
    · exact address_verifiesNone s _ _ a
    · exact .refl s
  · cases h
    exact wire_verifiesNone s _

theorem offer_verifiesNone (s : State) (a : Nat) (b : Byte) : VerifiesNone s (s.offer a b) := by
  unfold State.offer
  split
  · have habsorb := absorb_verifiesNone s
    split
    · exact (habsorb _ _ b true).settle
    · exact habsorb _ _ b true
  · exact .refl s

theorem readByte_verifiesNone (s : State) (x : Tx) (e : ClassEntry) (b : Byte) : VerifiesNone s (s.readByte x e b) := by
  unfold State.readByte
  dsimp only
  split
  · refine VerifiesNone.trans ?_ (offer_verifiesNone _ _ b)
    exact .of_runtime rfl
  · exact .of_runtime rfl

theorem serviceByte_verifiesNone (s : State) (x : Tx) (e : ClassEntry) (b : Byte) : VerifiesNone s (s.serviceByte x e b) := by
  unfold State.serviceByte
  dsimp only
  repeat' split
  all_goals exact .of_runtime rfl

theorem dataByte_verifiesNone (s : State) (x : Tx) (e : ClassEntry) (b : Byte) : VerifiesNone s (s.dataByte x e b) := by
  unfold State.dataByte
  dsimp only
  split
  case h_1 => exact serviceByte_verifiesNone s x e b
  case h_5 => exact readByte_verifiesNone s x e b
  case h_6 => split <;> exact .of_tables (by simp)
  all_goals exact .of_runtime rfl

theorem execUpstreamDataByte_verifiesNone {s t : State} {b : Byte} (h : execUpstreamDataByte b s = .next t) : VerifiesNone s t := by
  unfold execUpstreamDataByte at h
  split at h
  · cases h
    split <;> exact .of_runtime rfl
  · cases h
    split
    · exact (wire_verifiesNone s [b]).trans (.of_runtime rfl)
    · exact .refl s
  · split at h
    · split at h <;> cases h
      · exact dataByte_verifiesNone s _ _ b
      · exact .refl s
    · cases h
      exact .refl s

theorem judgeRise_verifiesNone (s : State) (x : Tx) : VerifiesNone s (s.judgeRise x) := by
  have hwrite : VerifiesNone s (s.acceptWrite x) := by
    unfold State.acceptWrite
    dsimp only
    split
    · exact .refl s
    · split
      · exact VerifiesNone.settle (.trans (.of_runtime rfl) (.foldl staleRegion_verifiesNone _ (s.modShadow _)))
      · exact .of_runtime rfl
  unfold State.judgeRise State.accept
  split
  · exact .refl s
  · split
    · split
      case h_1 | h_2 | h_3 | h_4 | h_5 => exact hwrite
      all_goals exact .of_runtime rfl
    · split <;> exact .of_runtime rfl

theorem takeRequest_verifiesNone (s : State) (q : Request) : VerifiesNone s (s.takeRequest q) := by
  cases q with
  | report | peek | unknown => exact .of_runtime rfl
  | detail index =>
    show VerifiesNone s (s.takeDetail index)
    unfold State.takeDetail
    split <;> exact .of_runtime rfl
  | raiseFloor kind =>
    show VerifiesNone s (s.takeRaise kind)
    unfold State.takeRaise
    dsimp only
    split <;> exact .of_runtime rfl
  | revoke slot =>
    show VerifiesNone s (s.takeRevoke slot)
    unfold State.takeRevoke
    dsimp only
    split <;> exact .of_runtime rfl
  | restart =>
    show VerifiesNone s s.takeRestart
    unfold State.takeRestart
    split
    case h_1 | h_2 => exact (runStart_verifiesNone s s .restart).trans (.of_runtime rfl)
    all_goals exact .of_runtime rfl
  | verify index =>
    show VerifiesNone s (s.takeVerify index)
    unfold State.takeVerify
    dsimp only
    split
    · exact (newAttempt_verifiesNone s _).settle.trans (.of_runtime rfl)
    · exact .of_runtime rfl

theorem takeBytes_verifiesNone (s : State) (bytes : List Byte) : VerifiesNone s (s.takeBytes bytes) := by
  unfold State.takeBytes
  split
  · exact takeRequest_verifiesNone s _
  · exact .refl s

theorem rise_verifiesNone (s : State) (x : Tx) : VerifiesNone s (s.rise x) := by
  have hend : VerifiesNone s ((s.judgeRise x).handCauses x).endTx :=
    ((judgeRise_verifiesNone s x).trans (.of_tables (handCauses_tables _ x))).trans (.of_tables (endTx_tables _))
  unfold State.rise State.handRequest
  refine VerifiesNone.arbitrate ?_
  split
  · exact hend.trans (takeBytes_verifiesNone _ _)
  · exact hend

theorem execUpstreamSelectRise_verifiesNone {s t : State} {clocks : Fin 8} (h : execUpstreamSelectRise clocks s = .next t) :
    VerifiesNone s t := by
  unfold execUpstreamSelectRise at h
  split at h
  · split at h <;> cases h
    · exact rise_verifiesNone s _
    · exact .of_tables (settleMode_tables _)
    · exact .of_tables (settleMode_tables _)
  · cases h
    exact .refl s

theorem request_verifiesNone (s : State) (bytes : List Byte) : VerifiesNone s (s.request bytes) := by
  unfold State.request
  split
  · split
    · exact (VerifiesNone.trans (.of_tables (settleMode_tables _)) (takeBytes_verifiesNone s.afterService bytes)).arbitrate
    · exact .refl s
  · split
    · exact rise_verifiesNone s _
    · exact .refl s

theorem takeByte_verifiesNone (s : State) (c : Fin 4) (b : Byte) : VerifiesNone s (s.takeByte c b) := by
  unfold State.takeByte
  split
  · exact gather_verifiesNone s c b
  · split
    · exact absorb_verifiesNone s c _ b false
    · exact .refl s
  · exact .refl s

theorem execBurstByteReceived_verifiesNone {s t : State} {b : Byte} (h : execBurstByteReceived b s = .next t) : VerifiesNone s t := by
  unfold execBurstByteReceived at h
  dsimp only at h
  split at h <;> cases h
  · rename_i c left _
    have hcount : VerifiesNone s ((s.takeByte c b).countBurst c left) := by
      refine (takeByte_verifiesNone s c b).trans (.of_runtime ?_)
      unfold State.countBurst
      repeat' split
      all_goals rfl
    refine VerifiesNone.arbitrate ?_
    split
    · exact hcount.settle
    · exact hcount
  · exact .refl s

theorem execDeadlineExpiry_verifiesNone {s t : State} (h : execDeadlineExpiry s = .next t) : VerifiesNone s t := by
  unfold execDeadlineExpiry at h
  split at h <;> cases h
  · rename_i rem _
    exact (expire_verifiesNone (s.elapse rem)).settle.arbitrate
  · exact .refl s

theorem execResetNAssert_verifiesNone {s t : State} (h : execResetNAssert s = .next t) : VerifiesNone s t := by
  unfold execResetNAssert at h
  split at h <;> cases h
  · exact .refl s
  · exact .of_empty rfl

theorem execResetNRelease_verifiesNone {s t : State} {mode clkbyp cutReads : Bool} (h : execResetNRelease mode clkbyp cutReads s = .next t) :
    VerifiesNone s t := by
  unfold execResetNRelease at h
  split at h <;> cases h <;> exact .of_runtime rfl

theorem execDummyCountComplete_verifiesNone {s t : State} (h : execDummyCountComplete s = .next t) : VerifiesNone s t := by
  unfold execDummyCountComplete at h
  split at h
  · split at h <;> cases h <;> exact .of_runtime rfl
  · cases h
    exact .refl s

theorem execFetch_verifiesNone {s t : State} (h : execFetch s = .next t) : VerifiesNone s t := by
  unfold execFetch at h
  split at h <;> split at h <;> cases h <;> exact .of_runtime rfl

theorem execHoldPulseExpiry_verifiesNone {s t : State} (h : execHoldPulseExpiry s = .next t) : VerifiesNone s t := by
  unfold execHoldPulseExpiry at h
  split at h <;> cases h <;> exact .of_runtime rfl

theorem execWakeComplete_verifiesNone {s t : State} (h : execWakeComplete s = .next t) : VerifiesNone s t := by
  unfold execWakeComplete at h
  split at h <;> cases h
  · exact VerifiesNone.arbitrate (.of_runtime rfl)
  · exact .refl s

theorem execWakeWaitEnd_verifiesNone {s t : State} (h : execWakeWaitEnd s = .next t) : VerifiesNone s t := by
  unfold execWakeWaitEnd at h
  split at h <;> cases h
  · exact VerifiesNone.arbitrate (.of_runtime rfl)
  · exact .refl s

theorem execStatusPollComplete_verifiesNone {s t : State} {status : Byte} (h : execStatusPollComplete status s = .next t) :
    VerifiesNone s t := by
  unfold execStatusPollComplete at h
  split at h <;> cases h
  · exact VerifiesNone.arbitrate (by split <;> exact .of_runtime rfl)
  · exact .refl s

theorem execPollWaitEnd_verifiesNone {s t : State} (h : execPollWaitEnd s = .next t) : VerifiesNone s t := by
  unfold execPollWaitEnd at h
  split at h <;> cases h
  · exact VerifiesNone.arbitrate (.of_runtime rfl)
  · exact .refl s

theorem execWriteDisableComplete_verifiesNone {s t : State} (h : execWriteDisableComplete s = .next t) : VerifiesNone s t := by
  unfold execWriteDisableComplete at h
  split at h <;> cases h
  · exact VerifiesNone.arbitrate (.of_runtime rfl)
  · exact .refl s

theorem execSleepComplete_verifiesNone {s t : State} (h : execSleepComplete s = .next t) : VerifiesNone s t := by
  unfold execSleepComplete at h
  split at h <;> cases h
  · exact VerifiesNone.arbitrate (.of_runtime rfl)
  · exact .refl s

theorem execFloorCellComplete_verifiesNone {s t : State} (h : execFloorCellComplete s = .next t) : VerifiesNone s t := by
  unfold execFloorCellComplete at h
  split at h <;> cases h <;> exact .of_runtime rfl

theorem execRevokeCellComplete_verifiesNone {s t : State} (h : execRevokeCellComplete s = .next t) : VerifiesNone s t := by
  unfold execRevokeCellComplete at h
  split at h <;> cases h <;> exact .of_runtime rfl

/-- No command but the completion of a signature check verifies a region. -/
theorem exec_verifiesNone {c : Instr} {s t : State} (hc : c ≠ .signatureCheckComplete) (h : exec c s = .next t) : VerifiesNone s t := by
  have hrequest {bytes : List Byte} (h : Host.Outcome.next (s.request bytes) = (.next t : Result)) : VerifiesNone s t := by
    cases h
    exact request_verifiesNone s bytes
  cases c with
  | signatureCheckComplete => exact absurd rfl hc
  | powerOn =>
    cases h
    exact .of_empty rfl
  | resetNAssert => exact execResetNAssert_verifiesNone h
  | resetNRelease => exact execResetNRelease_verifiesNone h
  | loadComplete => exact execLoadComplete_verifiesNone h
  | bootstrapReadComplete => exact execBootstrapReadComplete_verifiesNone h
  | provisionCellBurnComplete => exact execProvisionCellBurnComplete_verifiesNone h
  | instructionByteComplete => exact execInstructionByteComplete_verifiesNone h
  | addressComplete => exact execAddressComplete_verifiesNone h
  | upstreamDataByte => exact execUpstreamDataByte_verifiesNone h
  | upstreamSelectRise => exact execUpstreamSelectRise_verifiesNone h
  | report => exact hrequest h
  | peek => exact hrequest h
  | detail => exact hrequest h
  | verify => exact hrequest h
  | restart => exact hrequest h
  | raiseFloor => exact hrequest h
  | revoke => exact hrequest h
  | unknownRequest =>
    change execUnknownRequest _ s = _ at h
    unfold execUnknownRequest at h
    split at h
    · cases h
      exact .refl s
    · exact hrequest h
  | burstByteReceived => exact execBurstByteReceived_verifiesNone h
  | deadlineExpiry => exact execDeadlineExpiry_verifiesNone h
  | upstreamSelectAssert => exact execUpstreamSelectAssert_verifiesNone h
  | dummyCountComplete => exact execDummyCountComplete_verifiesNone h
  | fetch => exact execFetch_verifiesNone h
  | holdPulseExpiry => exact execHoldPulseExpiry_verifiesNone h
  | wakeComplete => exact execWakeComplete_verifiesNone h
  | wakeWaitEnd => exact execWakeWaitEnd_verifiesNone h
  | statusPollComplete => exact execStatusPollComplete_verifiesNone h
  | pollWaitEnd => exact execPollWaitEnd_verifiesNone h
  | writeDisableComplete => exact execWriteDisableComplete_verifiesNone h
  | sleepComplete => exact execSleepComplete_verifiesNone h
  | floorCellComplete => exact execFloorCellComplete_verifiesNone h
  | revokeCellComplete => exact execRevokeCellComplete_verifiesNone h

/-! ## The completion of a signature check -/

/-- What the application of a check result verifies: the entry's own region, in SIGNING and of the current run, by a check that passed. -/
theorem applyResult_verifies {s : State} {e : SigEntry} {passed : Bool} {i : Nat} (h : (s.applyResult e passed).isVerified i = true) :
    s.isVerified i = true
      ∨ (passed = true ∧ e.region = i ∧ e.runTag = s.runNumber ∧ s.rstate i = some .signing) := by
  unfold State.applyResult at h
  split at h
  · rename_i hdue
    obtain ⟨htag, hsigning⟩ := hdue
    cases passed with
    | false =>
      have hreject := reject_verifiesNone s e.region .signature
      dsimp only at h
      split at h
      · exact .inl ((hreject.trans (candidateRejected_verifiesNone _ _)) i h)
      · exact .inl (hreject i h)
    | true =>
      have hverify : (s.modRt e.region Runtime.verify).isVerified i = true := by
        dsimp only at h
        split at h
        · exact candidateVerified_verifiesNone _ _ i h
        · exact h
      by_cases hi : i = e.region
      · exact .inr ⟨rfl, hi.symm, htag, hi ▸ hsigning⟩
      · left
        simpa only [State.isVerified, State.rstate, rt_modRt_of_ne _ hi] using hverify
  · exact .inl h

/-- Settles O45: no step but the completion of a signature check verifies a region, and there it is the application of the result that
does, the closing of the event verifying none. -/
theorem onlyAPassingCheckVerifiesARegion : Obligations.OnlyAPassingCheckVerifiesARegion := by
  intro s t i hstep hno hyes
  have hcontra : ¬ VerifiesNone s t := fun h => by simp [h i hyes] at hno
  unfold step at hstep
  split at hstep
  · cases hstep
    exact absurd (.of_runtime rfl) hcontra
  · rename_i c rest hpending
    by_cases hc : c = .signatureCheckComplete
    · subst hc
      change execSignatureCheckComplete _ = _ at hstep
      unfold execSignatureCheckComplete at hstep
      split at hstep
      · rename_i g withdrawn key rem hunit
        cases hstep
        have hunverified : s.isVerified i ≠ true := by simp [hno]
        have hclose := (settle_verifiesNone _).arbitrate i hyes
        cases withdrawn with
        | true => exact absurd hclose hunverified
        | false =>
          obtain hold | ⟨hpass, hregion, htag, hsigning⟩ := applyResult_verifies hclose
          · exact absurd hold hunverified
          · exact ⟨rest, g, key, rem, hpending, hunit, hregion, htag, hsigning, hpass⟩
      · cases hstep
        exact absurd (.of_runtime rfl) hcontra
    · exact absurd (exec_verifiesNone hc hstep) hcontra

end Sys2Proof.Machine
end

section
/-! PROOFS. Facts about slots, lists of indices and folds, the conditions of the permit decision as R153 and R156 word them, and what the
closing of an event leaves of the signature records: the rules through which the proofs about runs, writes and expiry go. -/

namespace Sys2Proof.Machine

/-! ## Slots and pairs -/

theorem slotOf_isSome_iff (p : Pair) (i : Nat) : (p.slotOf i).isSome = true ↔ p.home = i ∨ p.alternate = i := by
  by_cases hh : p.home = i
  · simp [Pair.slotOf, hh]
  · by_cases ha : p.alternate = i <;> simp [Pair.slotOf, hh, ha]

/-- A region that belongs to a pair is one of its slots. -/
theorem slot_of_pairOf {s : State} {i j : Nat} {p : Pair} (hof : s.pairOf i = some j) (hp : s.pair j = some p) :
    p.home = i ∨ p.alternate = i := by
  obtain ⟨hlt, hslot, -⟩ := List.findIdx?_eq_some_iff_getElem.mp hof
  have hpj : s.pairs[j] = p := by simpa [State.pair, hlt] using hp
  exact (slotOf_isSome_iff p i).mp (hpj ▸ hslot)

/-- An unpaired region is no slot of any pair. -/
theorem pairOf_none_iff (s : State) (i : Nat) :
    s.pairOf i = none ↔ ∀ j p, s.pair j = some p → p.home ≠ i ∧ p.alternate ≠ i := by
  simp only [State.pairOf, List.findIdx?_eq_none_iff, State.pair, ← not_or, ← slotOf_isSome_iff, Bool.not_eq_true]
  constructor
  · intro h j p hp
    exact h p (List.mem_of_getElem? hp)
  · intro h p hp
    obtain ⟨j, hj⟩ := List.mem_iff_getElem?.mp hp
    exact h j p hj

theorem mem_ownerRegions_pair {s : State} {i j : Nat} : i ∈ s.ownerRegions (.pair j) ↔
    ∃ p, s.pair j = some p ∧ (p.home = i ∨ p.alternate = i) := by
  cases hp : s.pair j with
  | none => simp [State.ownerRegions, hp]
  | some p => simp [State.ownerRegions, hp, eq_comm]

/-- Where the owners stand for the same regions, the pairs have the same slots. -/
theorem SameWaiting.slots {s t : State} (h : SameWaiting s t) (j : Nat) :
    (t.pair j).map (fun p => (p.home, p.alternate)) = (s.pair j).map fun p => (p.home, p.alternate) := by
  have howner := h.owners (.pair j)
  cases hs : s.pair j <;> cases ht : t.pair j <;> simp_all [State.ownerRegions]

/-- And each region belongs to the same pair. -/
theorem SameWaiting.pairOf {s t : State} (h : SameWaiting s t) (i : Nat) : t.pairOf i = s.pairOf i := by
  have hslots : t.pairs.map (fun p => (p.home, p.alternate)) = s.pairs.map fun p => (p.home, p.alternate) := by
    refine List.ext_getElem? fun j => ?_
    simpa [State.pair] using h.slots j
  have hfind (ps : List Pair) : (ps.findIdx? fun p => (p.slotOf i).isSome)
      = (ps.map fun p => (p.home, p.alternate)).findIdx? fun x => decide (x.1 = i ∨ x.2 = i) := by
    rw [List.findIdx?_map]
    congr 1
    funext p
    rw [Function.comp_apply, Bool.eq_iff_iff, slotOf_isSome_iff, decide_eq_true_eq]
  simp only [State.pairOf, hfind, hslots]

/-- An unpaired region with no entry of its own does not wait in the queue. -/
theorem unqueued_of_unpaired {s : State} {i : Nat} (hof : s.pairOf i = none) (hqueue : Owner.region i ∉ s.queue) : s.Unqueued i := by
  intro o ho hi
  cases o with
  | region k =>
    obtain rfl : i = k := by simpa [State.ownerRegions] using hi
    exact hqueue ho
  | pair j =>
    obtain ⟨p, hp, hslot⟩ := mem_ownerRegions_pair.mp hi
    obtain ⟨hhome, halt⟩ := (pairOf_none_iff s i).mp hof j p hp
    exact hslot.elim hhome halt

/-! ## Folds -/

/-- What holds at first, and after each step of a fold, holds after the fold. -/
theorem foldl_keeps {α : Type} {f : State → α → State} {P : State → Prop} (h : ∀ s a, P s → P (f s a)) (l : List α) (s : State)
    (hs : P s) : P (l.foldl f s) := by
  induction l generalizing s with
  | nil => exact hs
  | cons a l ih => exact ih _ (h s a hs)

/-- What one step of a fold brings about, and every step keeps, holds after a fold that takes that step. -/
theorem foldl_brings {α : Type} {f : State → α → State} {Q P : State → Prop} {a : α} (hQ : ∀ s b, Q s → Q (f s b))
    (hP : ∀ s b, P s → P (f s b)) (hbring : ∀ s, Q s → P (f s a)) : ∀ (l : List α) (s : State), a ∈ l → Q s → P (l.foldl f s)
  | [], _, ha, _ => absurd ha List.not_mem_nil
  | b :: l, s, ha, hs => by
    obtain rfl | ha := List.mem_cons.mp ha
    · exact foldl_keeps hP l _ (hbring s hs)
    · exact foldl_brings hQ hP hbring l _ ha (hQ s b hs)

/-- The indices of the records of a list that satisfy a test. -/
theorem mem_indices_iff {α : Type} (l : List α) (test : α × Nat → Bool) (i : Nat) :
    i ∈ (l.zipIdx.filter test).map Prod.snd ↔ ∃ a, l[i]? = some a ∧ test (a, i) = true := by
  simp only [List.mem_map, List.mem_filter]
  constructor
  · rintro ⟨⟨a, k⟩, ⟨hm, ht⟩, rfl⟩
    exact ⟨a, List.mk_mem_zipIdx_iff_getElem?.mp hm, ht⟩
  · rintro ⟨a, ha, ht⟩
    exact ⟨(a, i), ⟨List.mk_mem_zipIdx_iff_getElem?.mpr ha, ht⟩, rfl⟩

theorem indices_nodup {α : Type} (l : List α) (test : α × Nat → Bool) : ((l.zipIdx.filter test).map Prod.snd).Nodup := by
  refine List.Nodup.sublist ((List.filter_sublist (l := l.zipIdx)).map Prod.snd) ?_
  rw [List.zipIdx_map_snd]
  exact List.nodup_range'

/-! ## The conditions of the permit decision and of the hold -/

theorem unpairedAll_iff (s : State) (test : Nat → Region → Bool) :
    s.unpairedAll test = true ↔ ∀ i r, s.region i = some r → s.pairOf i = none → test i r = true := by
  simp only [State.unpairedAll, List.all_eq_true]
  rw [forall_zipIdx_iff s.regions fun r i => ((s.pairOf i).isSome || test i r) = true]
  refine forall₃_congr fun i r _ => ?_
  cases s.pairOf i <;> simp

theorem all_pairs_iff (s : State) (test : Pair → Bool) : s.pairs.all test = true ↔ ∀ j p, s.pair j = some p → test p = true := by
  rw [List.all_eq_true]
  exact ⟨fun h j p hp => h p (List.mem_of_getElem? hp), fun h p hp => by
    obtain ⟨j, hj⟩ := List.mem_iff_getElem?.mp hp
    exact h j p hj⟩

theorem selectionVerified_iff (s : State) (p : Pair) :
    s.selectionVerified p = true ↔ ∃ i, p.selected = some i ∧ s.isVerified i = true := Option.any_eq_true _ _

/-- The permit condition is that of R153. -/
theorem permitCondition_iff (s : State) : s.permitCondition = true ↔ s.RequiredPassed := by
  simp only [State.permitCondition, State.RequiredPassed, Bool.and_eq_true, unpairedAll_iff, all_pairs_iff]
  refine and_congr (forall₃_congr fun i r _ => ?_) (forall₃_congr fun j p _ => ?_)
  · by_cases hrole : r.role = some .required <;> simp [hrole]
  · by_cases hrole : s.pairRole p = some .required <;> simp [hrole, selectionVerified_iff]

/-- The denial condition is that of R153. -/
theorem denialCondition_iff (s : State) : s.denialCondition = true ↔ s.RequiredFailed := by
  have hregions : (!(s.unpairedAll fun i r =>
        r.role != some .required || !(s.rstate i == some .rejected || s.rstate i == some .stale))) = true
      ↔ ∃ i r, s.region i = some r ∧ r.role = some .required ∧ s.pairOf i = none
          ∧ (s.rstate i = some .rejected ∨ s.rstate i = some .stale) := by
    rw [Bool.not_eq_true', ← Bool.not_eq_true, unpairedAll_iff]
    push Not
    refine exists₂_congr fun i r => and_congr_right fun _ => ?_
    simp
    tauto
  have hpairs : (s.pairs.any fun p =>
        s.pairRole p == some .required && (p.state == .failed || (p.state == .selected && !s.selectionVerified p))) = true
      ↔ ∃ j p, s.pair j = some p ∧ s.pairRole p = some .required
          ∧ (p.state = .failed ∨ (p.state = .selected ∧ ¬ ∃ i, p.selected = some i ∧ s.isVerified i = true)) := by
    rw [List.any_eq_true]
    simp only [← selectionVerified_iff, Bool.and_eq_true, Bool.or_eq_true, beq_iff_eq, Bool.not_eq_true', Bool.not_eq_true]
    constructor
    · rintro ⟨p, hp, h⟩
      obtain ⟨j, hj⟩ := List.mem_iff_getElem?.mp hp
      exact ⟨j, p, hj, h⟩
    · rintro ⟨j, p, hp, h⟩
      exact ⟨p, List.mem_of_getElem? hp, h⟩
  rw [State.denialCondition, Bool.or_eq_true, hregions, hpairs]
  rfl

/-! ## The signature records at the closing of an event -/

theorem takeCheck_cases (s : State) : s.takeCheck = s
    ∨ ∃ e rest, s.sigUnit = .idle ∧ s.sigList = e :: rest
        ∧ s.takeCheck = { s with sigList := rest, sigUnit := .checking e false s.keys.slots[e.keySlot].key s.synth.checkTime } := by
  unfold State.takeCheck
  split
  · rename_i e rest hunit hlist
    exact .inr ⟨e, rest, hunit, hlist, rfl⟩
  · exact .inl rfl

theorem settle_sigList (s : State) : s.settle.sigList = s.grants.takeCheck.sigList := by simp [State.settle]

theorem settle_sigUnit (s : State) : s.settle.sigUnit = s.grants.takeCheck.sigUnit := by simp [State.settle]

/-- No entry joins the signature list. -/
theorem mem_sigList_of_settle {s : State} {g : SigEntry} (h : g ∈ s.settle.sigList) : g ∈ s.sigList := by
  rw [settle_sigList] at h
  obtain he | ⟨e, rest, -, hlist, he⟩ := takeCheck_cases s.grants
  · rw [he] at h
    simpa using h
  · rw [he] at h
    rw [← State.grants_sigList, hlist]
    exact List.mem_cons_of_mem e h

/-- A check in progress was so, or is of an entry of the list, not withdrawn. -/
theorem checking_of_settle {s : State} {g : SigEntry} {w : Bool} {key : List Byte} {rem : Nat}
    (h : s.settle.sigUnit = .checking g w key rem) : s.sigUnit = .checking g w key rem ∨ (w = false ∧ g ∈ s.sigList) := by
  rw [settle_sigUnit] at h
  obtain he | ⟨e, rest, -, hlist, he⟩ := takeCheck_cases s.grants
  · left
    rw [he] at h
    simpa using h
  · right
    rw [he] at h
    cases h
    rw [State.grants_sigList] at hlist
    exact ⟨rfl, hlist ▸ List.mem_cons_self⟩

/-- Settling closes an event as settling and the arbiter's choice do. -/
theorem settle_closes (s : State) : Closes s s.settle :=
  (settle_arbitrate_closes s).trans (closes_of_same (by simp) (by simp) (by simp) (by simp) fun _ => by simp)

/-! ## Records that may lose their context -/

/-- From `s` to `t` the record of region `i` stays, but for a context it may lose. -/
def KeepsRecord (i : Nat) (s t : State) : Prop :=
  ∀ y, s.rt i = some y → ∃ x, t.rt i = some { y with context := x } ∧ (y.context = none → x = none)

theorem KeepsRecord.of_rt {i : Nat} {s t : State} (h : t.rt i = s.rt i) : KeepsRecord i s t :=
  fun y hy => ⟨y.context, h.trans hy, id⟩

theorem KeepsRecord.trans {i : Nat} {s t u : State} (h : KeepsRecord i s t) (h' : KeepsRecord i t u) : KeepsRecord i s u := by
  intro y hy
  obtain ⟨x, hx, hnone⟩ := h y hy
  obtain ⟨x', hx', hnone'⟩ := h' _ hx
  exact ⟨x', hx', fun hy => hnone' (hnone hy)⟩

theorem KeepsRecord.of_none {i : Nat} {s t : State} (h : KeepsRecord i s t) {y : Runtime} (hy : s.rt i = some y)
    (hnone : y.context = none) : t.rt i = some y := by
  obtain ⟨x, hx, hxnone⟩ := h y hy
  rw [hx, hxnone hnone, ← hnone]

theorem releaseOwner_keepsRecord (i : Nat) (s : State) (o : Owner) : KeepsRecord i s (s.releaseOwner o) := fun _ hy => rt_releaseOwner o hy

theorem failPair_keepsRecord (i : Nat) (s : State) (j : Nat) : KeepsRecord i s (s.failPair j) := by
  refine KeepsRecord.trans (.of_rt ?_) (releaseOwner_keepsRecord i _ _)
  rw [setSelection_eq]
  rfl

end Sys2Proof.Machine
end

section
/-! PROOFS. Deadline expiry (R53): what the rejection of a region and the failure of a pair bring about and every other one keeps, and
the denial that follows. -/

namespace Sys2Proof.Machine

/-! ## What is overdue -/

theorem inProgress_iff (st : RState) : st.inProgress = true ↔ st ∈ [RState.queued, .header, .hashing, .signing] := by
  cases st <;> decide

theorem unfinished_iff (p : Pair) : p.unfinished = true ↔ p.state ∈ [PairState.selecting, .tryingFirst, .tryingSecond] := by
  cases h : p.state <;> simp [Pair.unfinished, h]

theorem mem_overduePairs_iff (s : State) (j : Nat) : j ∈ s.overduePairs
    ↔ ∃ p, s.pair j = some p ∧ p.state ∈ [PairState.selecting, .tryingFirst, .tryingSecond] ∧ s.pairRole p = some .required := by
  rw [State.overduePairs, mem_indices_iff]
  simp only [Bool.and_eq_true, unfinished_iff, beq_iff_eq]
  rfl

theorem overdue_iff (s : State) (i : Nat) (r : Region) : s.overdue i r = true
    ↔ r.role = some .required ∧ (∃ y, s.rt i = some y ∧ y.state ∈ [RState.queued, .header, .hashing, .signing])
        ∧ ∀ j, s.pairOf i = some j → j ∈ s.overduePairs := by
  have hstate : (s.rstate i).any RState.inProgress = true
      ↔ ∃ y, s.rt i = some y ∧ y.state ∈ [RState.queued, .header, .hashing, .signing] := by
    simp only [State.rstate, Option.any_map, Option.any_eq_true, inProgress_iff]
  unfold State.overdue
  rw [Bool.and_eq_true, Bool.and_eq_true, hstate, and_assoc, beq_iff_eq]
  cases s.pairOf i <;> simp

theorem mem_overdueRegions_iff (s : State) (i : Nat) : i ∈ s.overdueRegions
    ↔ ∃ r, s.region i = some r ∧ r.role = some .required
        ∧ (∃ y, s.rt i = some y ∧ y.state ∈ [RState.queued, .header, .hashing, .signing])
        ∧ ∀ j, s.pairOf i = some j → j ∈ s.overduePairs := by
  rw [State.overdueRegions, mem_indices_iff]
  simp only [overdue_iff]
  rfl

/-! ## One rejection -/

/-- Region `i` stands rejected by the deadline, and the signature list holds no entry of it (R53). -/
def State.Overrun (s : State) (i : Nat) : Prop :=
  (∃ y, s.rt i = some y ∧ y.state = .rejected ∧ y.reason = some .deadline ∧ y.context = none) ∧ ∀ g ∈ s.sigList, g.region ≠ i

theorem Overrun.of_keeps {s t : State} {i : Nat} (hrt : KeepsRecord i s t) (hsig : ∀ g ∈ t.sigList, g ∈ s.sigList) (h : s.Overrun i) :
    t.Overrun i := by
  obtain ⟨⟨y, hy, hstate, hreason, hnone⟩, hno⟩ := h
  exact ⟨⟨y, hrt.of_none hy hnone, hstate, hreason, hnone⟩, fun g hg => hno g (hsig g hg)⟩

theorem rejectOverdue_sigList (s : State) (k : Nat) : (s.rejectOverdue k).sigList = s.sigList.filter fun e => e.region != k := by
  rw [State.rejectOverdue, releaseOwner_eq]
  rfl

theorem rejectOverdue_sameWaiting (s : State) (k : Nat) : SameWaiting s (s.rejectOverdue k) :=
  (releaseOwner_sameWaiting s (.region k)).trans (sameWaiting_of_same rfl rfl)

theorem rejectOverdue_pairs (s : State) (k : Nat) : (s.rejectOverdue k).pairs = s.pairs := by
  rw [State.rejectOverdue, releaseOwner_eq]
  rfl

theorem rejectOverdue_keepsRecord {i k : Nat} (s : State) (h : i ≠ k) : KeepsRecord i s (s.rejectOverdue k) :=
  (releaseOwner_keepsRecord i s (.region k)).trans (.of_rt (rt_modRt_of_ne _ h))

/-- The rejection of a region brings it about. -/
theorem rejectOverdue_overruns {s : State} {i : Nat} (h : ∃ y, s.rt i = some y) : (s.rejectOverdue i).Overrun i := by
  obtain ⟨y, hy⟩ := h
  obtain ⟨x, hx, -⟩ := releaseOwner_keepsRecord i s (.region i) y hy
  exact ⟨⟨_, rt_modRt_self (Runtime.reject .deadline) hx, rfl, rfl, rfl⟩, fun g hg => by
    rw [rejectOverdue_sigList] at hg
    simpa using (List.mem_filter.mp hg).2⟩

/-- Every rejection keeps it, that of the region itself too. -/
theorem rejectOverdue_keeps_overrun {i : Nat} (s : State) (k : Nat) (h : s.Overrun i) : (s.rejectOverdue k).Overrun i := by
  by_cases hik : i = k
  · subst hik
    obtain ⟨⟨y, hy, -⟩, -⟩ := h
    exact rejectOverdue_overruns ⟨y, hy⟩
  · refine Overrun.of_keeps (rejectOverdue_keepsRecord s hik) (fun g hg => ?_) h
    rw [rejectOverdue_sigList] at hg
    exact (List.mem_filter.mp hg).1

theorem failPair_sigList (s : State) (j : Nat) : (s.failPair j).sigList = s.sigList := by
  rw [State.failPair, releaseOwner_eq, setSelection_eq]
  rfl

theorem failPair_keeps_overrun {i : Nat} (s : State) (j : Nat) (h : s.Overrun i) : (s.failPair j).Overrun i :=
  Overrun.of_keeps (failPair_keepsRecord i s j) (fun _ hg => failPair_sigList s j ▸ hg) h

/-! ## One failure -/

/-- Pair `j` stands FAILED, its selection NONE (R50). -/
def State.PairFailed (s : State) (j : Nat) : Prop := ∃ p, s.pair j = some p ∧ p.state = .failed ∧ p.selection = .none

theorem failPair_fails {s : State} {j : Nat} (h : ∃ p, s.pair j = some p) : (s.failPair j).PairFailed j := by
  obtain ⟨p, hp⟩ := h
  exact ⟨_, pair_failPair hp, rfl, rfl⟩

theorem pair_failPair_of_ne {s : State} {j k : Nat} (h : j ≠ k) : (s.failPair k).pair j = s.pair j := by
  rw [State.failPair, pair_releaseOwner, pair_modPair, if_neg h]
  cases hk : s.pair k with
  | none => simp [State.setSelection, hk]
  | some p =>
    rw [setSelection_of_pair .none hk]
    exact (pair_modPair _ _ _ _).trans (if_neg h)

theorem failPair_keeps_pair {j : Nat} (s : State) (k : Nat) (h : ∃ p, s.pair j = some p) : ∃ p, (s.failPair k).pair j = some p := by
  by_cases hjk : j = k
  · subst hjk
    obtain ⟨p, hp, -⟩ := failPair_fails h
    exact ⟨p, hp⟩
  · rwa [pair_failPair_of_ne hjk]

theorem failPair_keeps_failed {j : Nat} (s : State) (k : Nat) (h : s.PairFailed j) : (s.failPair k).PairFailed j := by
  by_cases hjk : j = k
  · subst hjk
    obtain ⟨p, hp, -⟩ := h
    exact failPair_fails ⟨p, hp⟩
  · rwa [State.PairFailed, pair_failPair_of_ne hjk]

/-! ## The expiry -/

/-- The deadline stops, and what is overdue leaves the queue (R53). -/
def State.overdueDropped (s : State) : State :=
  { s with
    deadline := none
    queue := s.queue.filter fun
      | .region i => !s.overdueRegions.contains i
      | .pair j => !s.overduePairs.contains j }

theorem expire_eq (s : State) :
    s.expire = s.overduePairs.foldl State.failPair (s.overdueRegions.foldl State.rejectOverdue s.overdueDropped) := rfl

theorem mem_queue_overdueDropped (s : State) (o : Owner) : o ∈ s.overdueDropped.queue
    ↔ o ∈ s.queue ∧ (∀ i, o = .region i → i ∉ s.overdueRegions) ∧ ∀ j, o = .pair j → j ∉ s.overduePairs := by
  cases o <;> simp [State.overdueDropped]

theorem expire_sameWaiting (s : State) : SameWaiting s.overdueDropped s.expire :=
  foldl_keeps (P := SameWaiting s.overdueDropped) (fun t j h => h.trans (failPair_sameWaiting t j)) _ _
    (foldl_keeps (P := SameWaiting s.overdueDropped) (fun t i h => h.trans (rejectOverdue_sameWaiting t i)) _ _ (.refl _))

theorem expire_ownerRegions (s : State) (o : Owner) : s.expire.ownerRegions o = s.ownerRegions o :=
  ((expire_sameWaiting s).owners o).trans (ownerRegions_congr (s := s) (t := s.overdueDropped) rfl o)

theorem mem_queue_expire (s : State) (o : Owner) : o ∈ s.expire.queue
    ↔ o ∈ s.queue ∧ (∀ i, o = .region i → i ∉ s.overdueRegions) ∧ ∀ j, o = .pair j → j ∉ s.overduePairs := by
  rw [(expire_sameWaiting s).queue, mem_queue_overdueDropped]

/-- From `s` to `t` the deadline stops, and else only the verifier's records and the flash port change. -/
def ChangesVerifier (s t : State) : Prop :=
  t = { s with
    deadline := none, queue := t.queue, pairs := t.pairs, runtime := t.runtime, trans := t.trans, contexts := t.contexts
    sigList := t.sigList, sigUnit := t.sigUnit, fp := t.fp }

theorem expire_changesVerifier (s : State) : ChangesVerifier s s.expire := by
  refine foldl_keeps (fun t j h => ?_) _ _ (foldl_keeps (fun t i h => ?_) _ _ rfl)
  · rw [ChangesVerifier, State.failPair, releaseOwner_eq, setSelection_eq, h]
    rfl
  · rw [ChangesVerifier, State.rejectOverdue, releaseOwner_eq, h]
    rfl

theorem expire_overruns {s : State} {i : Nat} (h : i ∈ s.overdueRegions) : s.expire.Overrun i := by
  obtain ⟨-, -, -, ⟨y, hy, -⟩, -⟩ := (mem_overdueRegions_iff s i).mp h
  refine foldl_keeps failPair_keeps_overrun _ _ ?_
  refine foldl_brings (Q := fun t => ∃ y, t.rt i = some y) (fun t k ⟨y, hy⟩ => ?_) rejectOverdue_keeps_overrun
    (fun _ => rejectOverdue_overruns) _ _ h ⟨y, hy⟩
  by_cases hik : i = k
  · subst hik
    obtain ⟨⟨y', hy', -⟩, -⟩ := rejectOverdue_overruns ⟨y, hy⟩
    exact ⟨y', hy'⟩
  · obtain ⟨x, hx, -⟩ := rejectOverdue_keepsRecord t hik y hy
    exact ⟨_, hx⟩

theorem expire_fails {s : State} {j : Nat} (h : j ∈ s.overduePairs) : s.expire.PairFailed j := by
  obtain ⟨p, hp, -⟩ := (mem_overduePairs_iff s j).mp h
  refine foldl_brings failPair_keeps_pair failPair_keeps_failed (fun _ => failPair_fails) _ _ h ?_
  refine foldl_keeps (P := fun t => ∃ p, t.pair j = some p) (fun t k ht => ?_) _ _ ⟨p, hp⟩
  rwa [pair_congr (rejectOverdue_pairs t k)]

theorem foldl_rejectOverdue_keepsRecord {i : Nat} : ∀ (l : List Nat) (s : State), i ∉ l → KeepsRecord i s (l.foldl State.rejectOverdue s)
  | [], _, _ => .of_rt rfl
  | k :: l, s, h => by
    obtain ⟨hik, hl⟩ := not_or.mp (mt List.mem_cons.mpr h)
    exact (rejectOverdue_keepsRecord s hik).trans (foldl_rejectOverdue_keepsRecord l _ hl)

/-- A region that is not overdue keeps its record. -/
theorem expire_keepsRecord {s : State} {i : Nat} (h : i ∉ s.overdueRegions) : KeepsRecord i s s.expire :=
  foldl_keeps (P := KeepsRecord i s) (fun t j ht => ht.trans (failPair_keepsRecord i t j)) _ _
    (KeepsRecord.trans (t := s.overdueDropped) (.of_rt rfl) (foldl_rejectOverdue_keepsRecord _ _ h))

/-! ## The denial -/

/-- A rejected REQUIRED region that is unpaired ends a run in VERIFYING in DENIED (R153, R161). -/
theorem settle_denies {s : State} {i : Nat} {r : Region} {y : Runtime} (hpermit : s.permit = .verifying) (hr : s.region i = some r)
    (hrole : r.role = some .required) (hof : s.pairOf i = none) (hqueue : s.Unqueued i) (hy : s.rt i = some y)
    (hstate : y.state = .rejected) : s.settle.permit = .denied ∧ s.settle.alerts.denied = true ∧ s.settle.alerts.resultUnread = true := by
  have hrstate : s.grants.takeCheck.rstate i = some .rejected := by
    refine rstate_eq_some_iff.mpr ⟨y, ?_, hstate⟩
    rw [rt_congr (State.takeCheck_runtime _), (grants_closes s).rt i hqueue, hy]
  have hregion : s.grants.takeCheck.region i = some r := (region_congr (by simp) i).trans hr
  have hunpaired : s.grants.takeCheck.pairOf i = none := by
    rw [State.pairOf, State.takeCheck_pairs, State.grants_pairs]
    exact hof
  have hpass : s.grants.takeCheck.permitCondition ≠ true := fun h => by
    have hverified := ((permitCondition_iff _).mp h).1 i r hregion hrole hunpaired
    simp [State.isVerified, hrstate] at hverified
  have hfail : s.grants.takeCheck.denialCondition = true :=
    (denialCondition_iff _).mpr (.inl ⟨i, r, hregion, hrole, hunpaired, .inl hrstate⟩)
  have hdecide : s.grants.takeCheck.decidePermit = s.grants.takeCheck.endRun .denied := by
    rw [State.decidePermit, if_pos (by simpa using hpermit), if_neg hpass, if_pos hfail]
  simp [State.settle, hdecide, State.endRun]

theorem pairOf_expire (s : State) (i : Nat) : s.expire.pairOf i = s.pairOf i := (expire_sameWaiting s).pairOf i

/-! ## What stands once the event is closed -/

/-- A stopped deadline stays stopped. -/
theorem settle_deadline_none {s : State} (h : s.deadline = none) : s.settle.deadline = none := by
  have hdecide : s.grants.takeCheck.decidePermit.deadline = none := by
    obtain ⟨he, -⟩ | ⟨-, -, he⟩ | ⟨-, -, -, he⟩ := decidePermit_cases s.grants.takeCheck <;> rw [he]
    · simpa using h
    · rfl
    · rfl
  simpa [State.settle] using hdecide

theorem overrun_of_closed {s : State} {i : Nat} (h : s.Overrun i) (hqueue : s.Unqueued i) : s.settle.arbitrate.Overrun i := by
  refine Overrun.of_keeps (.of_rt ((settle_arbitrate_closes s).rt i hqueue)) (fun g hg => ?_) h
  rw [State.arbitrate_sigList] at hg
  exact mem_sigList_of_settle hg

/-- An unpaired overdue region does not wait any more. -/
theorem expire_unqueued_of_unpaired {s : State} {i : Nat} (h : i ∈ s.overdueRegions) (hof : s.pairOf i = none) : s.expire.Unqueued i :=
  unqueued_of_unpaired ((pairOf_expire s i).trans hof) fun hq => ((mem_queue_expire s _).mp hq).2.1 i rfl h

/-- Nor does an overdue slot for which its pair, or it itself, has waited alone. -/
theorem expire_unqueued_of_slot {s : State} {i j : Nat} (hi : i ∈ s.overdueRegions) (hj : j ∈ s.overduePairs)
    (hqueue : ∀ o ∈ s.queue, i ∈ s.ownerRegions o → o = .pair j ∨ o = .region i) : s.expire.Unqueued i := by
  intro o ho hio
  rw [expire_ownerRegions] at hio
  obtain ⟨hin, hregion, hpair⟩ := (mem_queue_expire s o).mp ho
  obtain rfl | rfl := hqueue o hin hio
  · exact hpair j rfl hj
  · exact hregion i rfl hi

/-- Settles O44: by the expiry's effect on each region and pair, which the closing of the event leaves, none of them waiting in the
queue any more. -/
theorem deadlineExpiryRejectsUnfinishedRequiredWork : Obligations.DeadlineExpiryRejectsUnfinishedRequiredWork := by
  intro s rem hdeadline
  have hexec : exec .deadlineExpiry s = .next (s.elapse rem).expire.settle.arbitrate := by
    simp only [exec, execDeadlineExpiry, hdeadline]
  have hclose := settle_arbitrate_closes (s.elapse rem).expire
  have hframe := expire_changesVerifier (s.elapse rem)
  have hqueued (o : Owner) (ho : o ∈ (s.elapse rem).expire.settle.arbitrate.queue) := (mem_queue_expire _ o).mp (hclose.queue o ho)
  have hunpaired (i : Nat) (r : Region) (y : Runtime) (hr : s.region i = some r) (hrole : r.role = some .required)
      (hy : s.rt i = some y) (hof : s.pairOf i = none) (hstate : y.state ∈ [RState.queued, .header, .hashing, .signing]) :
      i ∈ (s.elapse rem).overdueRegions :=
    (mem_overdueRegions_iff _ i).mpr ⟨r, hr, hrole, ⟨y, hy, hstate⟩, fun j hj => absurd (hof.symm.trans hj) nofun⟩
  have hpair (j : Nat) (p : Pair) (hp : s.pair j = some p) (hrole : s.pairRole p = some .required)
      (hstate : p.state ∈ [PairState.selecting, .tryingFirst, .tryingSecond]) : j ∈ (s.elapse rem).overduePairs :=
    (mem_overduePairs_iff _ j).mpr ⟨p, hp, hstate, hrole⟩
  refine ⟨_, hexec, ?_, ?_, ?_, ?_, ?_, ?_⟩
  · rw [State.arbitrate_deadline]
    exact settle_deadline_none (by rw [hframe])
  · intro i r y hr hrole hy hof hstate
    have hi := hunpaired i r y hr hrole hy hof hstate
    obtain ⟨hrt, hsig⟩ := overrun_of_closed (expire_overruns hi) (expire_unqueued_of_unpaired hi hof)
    exact ⟨hrt, fun hq => (hqueued _ hq).2.1 i rfl hi, hsig⟩
  · intro j p hp hrole hstate
    have hj := hpair j p hp hrole hstate
    obtain ⟨p', hp', hfailed⟩ := expire_fails hj
    exact ⟨⟨p', (hclose.pair j).trans hp', hfailed⟩, fun hq => (hqueued _ hq).2.2 j rfl hj⟩
  · intro j p i r y hp hprole hpstate hof hr hrole hy hstate hqueue
    have hj := hpair j p hp hprole hpstate
    have hi : i ∈ (s.elapse rem).overdueRegions := (mem_overdueRegions_iff _ i).mpr
      ⟨r, hr, hrole, ⟨y, hy, hstate⟩, fun k hk => by obtain rfl : j = k := Option.some.inj (hof.symm.trans hk); exact hj⟩
    exact overrun_of_closed (expire_overruns hi) (expire_unqueued_of_slot hi hj hqueue)
  · intro i r y hr hy hqueue hleft
    have hi : i ∉ (s.elapse rem).overdueRegions := fun h => by
      obtain ⟨r', hr', hrole, ⟨y', hy', hstate⟩, -⟩ := (mem_overdueRegions_iff _ i).mp h
      obtain rfl : r = r' := Option.some.inj (hr.symm.trans hr')
      obtain rfl : y = y' := Option.some.inj (hy.symm.trans hy')
      obtain hno | hfinished := hleft
      · exact hno hrole
      · cases hs : y.state <;> simp [hs] at hstate hfinished
    obtain ⟨x, hx, -⟩ := expire_keepsRecord hi y hy
    have hunqueued : (s.elapse rem).expire.Unqueued i := fun o ho => by
      rw [expire_ownerRegions]
      exact hqueue o ((mem_queue_expire _ o).mp ho).1
    exact ⟨_, (hclose.rt i hunqueued).trans hx, rfl, rfl, rfl⟩
  · rintro hpermit ⟨i, r, y, hr, hrole, hy, hof, hstate⟩
    have hi := hunpaired i r y hr hrole hy hof hstate
    obtain ⟨⟨y', hy', hrejected, -⟩, -⟩ := expire_overruns hi
    rw [State.arbitrate_permit, State.arbitrate_alerts]
    refine settle_denies ?_ ?_ hrole ((pairOf_expire _ i).trans hof) (expire_unqueued_of_unpaired hi hof) hy' hrejected
    · rw [hframe]
      exact hpermit
    · rw [hframe]
      exact hr

end Sys2Proof.Machine
end

section
/-! PROOFS. One microsecond on an empty queue: the commands due are those of the timers that have run out, each once (logs 2, 4). -/

namespace Sys2Proof.Machine

/-- Whatever number picks the order, it is an order of the same list. -/
theorem inOrder_perm : ∀ (n : Nat) (l : List Instr), (inOrder n l).Perm l
  | _, [] => .refl _
  | _, [_] => .refl _
  | n, c :: d :: rest => by
    have htail := inOrder_perm (n / ((d :: rest).length + 1)) (d :: rest)
    have hle : n % ((d :: rest).length + 1) ≤ (inOrder (n / ((d :: rest).length + 1)) (d :: rest)).length := by
      rw [htail.length_eq]
      exact Nat.lt_succ_iff.mp (Nat.mod_lt _ (Nat.succ_pos _))
    exact (List.perm_insertIdx c _ hle).trans (htail.cons c)

/-- The commands of the timers, in the order in which `due` lists them. -/
def timerCommands : List Instr :=
  [.signatureCheckComplete, .deadlineExpiry, .holdPulseExpiry, .wakeWaitEnd, .pollWaitEnd, .floorCellComplete, .revokeCellComplete,
    .provisionCellBurnComplete]

theorem due_sublist (s : State) : s.due.Sublist timerCommands := by
  have hsig : (match s.sigUnit with | .checking _ _ _ 0 => [Instr.signatureCheckComplete] | _ => []).Sublist
      [.signatureCheckComplete] := by
    split <;> simp
  have hif (p : Prop) [Decidable p] (c : Instr) : (if p then [c] else []).Sublist [c] := by split <;> simp
  have hpulse : (match s.pulse with | .running 0 => [Instr.holdPulseExpiry] | _ => []).Sublist [.holdPulseExpiry] := by
    split <;> simp
  have hburn : (match s.keys.burn with
      | some ⟨.floor _ _, 0⟩ => [Instr.floorCellComplete]
      | some ⟨.revoke _, 0⟩ => [.revokeCellComplete]
      | _ => []).Sublist [.floorCellComplete, .revokeCellComplete] := by
    split <;> simp
  have hprov : (match s.prov with | .burning _ _ 0 => [Instr.provisionCellBurnComplete] | _ => []).Sublist
      [.provisionCellBurnComplete] := by
    split <;> simp
  exact (((((hsig.append (hif _ _)).append hpulse).append (hif _ _)).append (hif _ _)).append hburn).append hprov

theorem due_nodup (s : State) : s.due.Nodup := (due_sublist s).nodup (by decide)

/-- Exactly the commands of the timers that have run out are due. -/
theorem mem_due_iff (s : State) (c : Instr) : c ∈ s.due ↔
    (c = .signatureCheckComplete ∧ ∃ e w key, s.sigUnit = .checking e w key 0)
      ∨ (c = .deadlineExpiry ∧ s.deadline = some 0)
      ∨ (c = .holdPulseExpiry ∧ s.pulse = .running 0)
      ∨ (c = .wakeWaitEnd ∧ s.fp.wakeWait = some 0)
      ∨ (c = .pollWaitEnd ∧ s.fp.pollWait = some 0)
      ∨ (c = .floorCellComplete ∧ ∃ k target, s.keys.burn = some ⟨.floor k target, 0⟩)
      ∨ (c = .revokeCellComplete ∧ ∃ i, s.keys.burn = some ⟨.revoke i, 0⟩)
      ∨ (c = .provisionCellBurnComplete ∧ ∃ want cell, s.prov = .burning want cell 0) := by
  have hif (p : Prop) [Decidable p] (d : Instr) : c ∈ (if p then [d] else []) ↔ c = d ∧ p := by split <;> simp_all
  have hsig : c ∈ (match s.sigUnit with | .checking _ _ _ 0 => [Instr.signatureCheckComplete] | _ => [])
      ↔ c = .signatureCheckComplete ∧ ∃ e w key, s.sigUnit = .checking e w key 0 := by
    split <;> simp_all
  have hpulse : c ∈ (match s.pulse with | .running 0 => [Instr.holdPulseExpiry] | _ => [])
      ↔ c = .holdPulseExpiry ∧ s.pulse = .running 0 := by
    split <;> simp_all
  have hburn : c ∈ (match s.keys.burn with
        | some ⟨.floor _ _, 0⟩ => [Instr.floorCellComplete]
        | some ⟨.revoke _, 0⟩ => [.revokeCellComplete]
        | _ => [])
      ↔ (c = .floorCellComplete ∧ ∃ k target, s.keys.burn = some ⟨.floor k target, 0⟩)
        ∨ (c = .revokeCellComplete ∧ ∃ i, s.keys.burn = some ⟨.revoke i, 0⟩) := by
    split <;> simp_all
  have hprov : c ∈ (match s.prov with | .burning _ _ 0 => [Instr.provisionCellBurnComplete] | _ => [])
      ↔ c = .provisionCellBurnComplete ∧ ∃ want cell, s.prov = .burning want cell 0 := by
    split <;> simp_all
  simp only [State.due, List.mem_append]
  refine (or_congr (or_congr (or_congr (or_congr (or_congr (or_congr hsig (hif _ _)) hpulse) (hif _ _)) (hif _ _)) hburn) hprov).trans ?_
  simp only [or_assoc]

/-! ## The timers a microsecond later -/

theorem lapse_one_eq_zero (t : Option Nat) : lapse 1 t = some 0 ↔ ∃ n, t = some n ∧ n ≤ 1 := by
  simp [lapse, Nat.sub_eq_zero_iff_le]

theorem SigUnit.lapse_one_eq_zero (u : SigUnit) (e : SigEntry) (w : Bool) (key : List Byte) :
    u.lapse 1 = .checking e w key 0 ↔ ∃ n, u = .checking e w key n ∧ n ≤ 1 := by
  cases u with
  | idle => simp [SigUnit.lapse]
  | checking => simp [SigUnit.lapse, Nat.sub_eq_zero_iff_le]; tauto

theorem Pulse.lapse_one_eq_zero (p : Pulse) : p.lapse 1 = .running 0 ↔ ∃ n, p = .running n ∧ n ≤ 1 := by
  cases p <;> simp [Pulse.lapse, Nat.sub_eq_zero_iff_le]

theorem Provisioning.lapse_one_eq_zero (p : Provisioning) (want : Store) (cell : StoreCell) :
    p.lapse 1 = .burning want cell 0 ↔ ∃ n, p = .burning want cell n ∧ n ≤ 1 := by
  cases p with
  | idle => simp [Provisioning.lapse]
  | reading => simp [Provisioning.lapse]
  | burning => simp [Provisioning.lapse, Nat.sub_eq_zero_iff_le]; tauto

theorem burn_lapse_one_eq_zero (b : Option Burn) (job : BurnJob) :
    (b.map fun b => { b with remaining := b.remaining - 1 }) = some ⟨job, 0⟩ ↔ ∃ n, b = some ⟨job, n⟩ ∧ n ≤ 1 := by
  rcases b with _ | ⟨job', n⟩
  · simp
  · simp [Nat.sub_eq_zero_iff_le]

/-- Settles O2: the step on an empty queue is the passing of a microsecond, whose due commands join the queue in some order. -/
theorem anIdleStepLetsAMicrosecondPass : Obligations.AnIdleStepLetsAMicrosecondPass := by
  intro s hqueue
  have hperm : s.tick.pending.Perm (s.elapse 1).due := inOrder_perm _ _
  refine ⟨s.tick, by simp only [step, hqueue], ?_, hperm.nodup_iff.mpr (due_nodup _), fun c => ?_⟩
  · have helapse : s.tick = { s.elapse 1 with pending := s.tick.pending } := rfl
    refine helapse.trans ?_
    dsimp only [State.elapse]
    congr 1
    cases s.sigUnit <;> rfl
  · rw [hperm.mem_iff, mem_due_iff]
    simp only [State.elapse_sigUnit, State.elapse_deadline, State.elapse_pulse, State.elapse_fp, State.elapse_keys, State.elapse_prov,
      lapse_one_eq_zero, SigUnit.lapse_one_eq_zero, Pulse.lapse_one_eq_zero, Provisioning.lapse_one_eq_zero, burn_lapse_one_eq_zero]

end Sys2Proof.Machine
end

section
/-! PROOFS. VERIFY (R56 to R58, R167): how a request is taken in a listening part, the judgement, and the new attempt with its grant. -/

namespace Sys2Proof.Machine

/-! ## A request in a listening part -/

/-- The flag byte of a response says what `reply` says of it (R172). -/
theorem place_eq (s : State) (code arg : Byte) (status : Status) (data : List Byte) :
    s.place code arg status data = { s with response := s.reply code arg status.code data } := by
  have hflag : flagBit 0 (s.response.any fun r => !r.fetched) = if s.response.any (fun r => !r.fetched) then 1 else 0 := by
    unfold flagBit
    split <;> rfl
  rw [State.place, hflag]
  rfl

theorem afterService_of_listening {s : State} (h : s.Listening) : s.afterService = s.served := by
  obtain ⟨-, hrunning⟩ := h
  have hmode : s.permit.mode = .relaying := by cases hp : s.permit <;> simp [hp, PermitState.running] at hrunning <;> rfl
  rw [State.afterService, settleMode_eq]
  simp only [hmode]
  rfl

/-- A listening part takes a request once the service transaction that carried it is over, before the arbiter's choice (log 38). -/
theorem request_of_listening {s : State} (h : s.Listening) (bytes : List Byte) :
    s.request bytes = (s.served.takeBytes bytes).arbitrate := by
  have hup : s.up.tx = none ∧ s.up.mode = .relaying ∧ s.up.select = false := by rw [h.1]; exact ⟨rfl, rfl, rfl⟩
  obtain ⟨htx, hmode, hselect⟩ := hup
  simp only [State.request, htx, if_pos (And.intro hmode hselect), afterService_of_listening h]

theorem exec_verify_of_listening {s : State} (h : s.Listening) (index : Byte) :
    exec (.verify index) s = .next (s.served.takeVerify index).arbitrate :=
  congrArg Host.Outcome.next (request_of_listening h [0x04, index])

/-! ## The judgement (R56) -/

theorem verifiableAt_eq_none {s : State} {index : Byte} (h : 15 < index.toNat ∨ ∀ r, s.region index.toNat = some r → r.gate = .opened) :
    s.verifiableAt index = none := by
  unfold State.verifiableAt
  split
  · rename_i hle
    have hopen := h.resolve_left (by omega)
    rw [Option.filter_eq_none_iff]
    intro r hr
    simp [verifiable_iff, hopen r hr]
  · rfl

theorem verifiableAt_eq_some {s : State} {index : Byte} {r : Region} (hle : index.toNat ≤ 15) (hr : s.region index.toNat = some r)
    (hgate : r.gate ≠ .opened) : s.verifiableAt index = some r := by
  rw [State.verifiableAt, if_pos hle, hr]
  simp [verifiable_iff, hgate]

theorem stateByte_of_none {s : State} {index : Byte} (h : s.verifiableAt index = none) : s.stateByte index = 0xFF := by
  simp [State.stateByte, h]

theorem stateByte_of_some {s : State} {index : Byte} {r : Region} {y : Runtime} (h : s.verifiableAt index = some r)
    (hy : s.rt index.toNat = some y) : s.stateByte index = y.state.code := by
  simp [State.stateByte, h, State.rstate, hy]

/-- No state is one of those in progress and one of those at rest. -/
theorem not_inProgress_of_rest {st : RState} (h : st ∈ [RState.unchecked, .verified, .rejected, .stale]) :
    st ∉ [RState.queued, .header, .hashing, .signing] := by
  cases st <;> simp at h ⊢

/-- An attempt is in progress on a region at rest only as a slot of a SELECTING pair (log 36). -/
theorem attemptInProgress_of_rest {s : State} {i : Nat} {y : Runtime} (hy : s.rt i = some y)
    (hrest : y.state ∈ [RState.unchecked, .verified, .rejected, .stale])
    (hpair : ∀ j p, s.pairOf i = some j → s.pair j = some p → p.state ≠ .selecting) : s.attemptInProgress i = false := by
  rw [← Bool.not_eq_true, attemptInProgress_iff]
  rintro (⟨st, hst, hin⟩ | ⟨j, p, hof, hp, hselecting⟩)
  · obtain ⟨y', hy', rfl⟩ := rstate_eq_some_iff.mp hst
    obtain rfl : y = y' := Option.some.inj (hy.symm.trans hy')
    exact not_inProgress_of_rest hrest hin
  · exact hpair j p hof hp hselecting

/-- The allowed targets of R57. -/
theorem allowedTarget_iff (s : State) (i : Nat) (r : Region) : s.allowedTarget i r = true ↔
    (s.pairOf i = none
        ∧ (r.role = some .optional
          ∨ (r.role = some .required ∧ s.permit = .denied ∧ (s.rstate i = some .rejected ∨ s.rstate i = some .stale))))
      ∨ ∃ j p, s.pairOf i = some j ∧ s.pair j = some p
          ∧ (p.state = .failed ∨ (p.state = .selected ∧ p.selected ≠ some i)) := by
  unfold State.allowedTarget State.pairRecordOf
  cases hof : s.pairOf i with
  | none => cases hrole : r.role with
    | none => simp
    | some role => cases role <;> simp
  | some j =>
    obtain ⟨p, hp⟩ := pairOf_pair hof
    simp [hp, Pair.isSelection]
    tauto

theorem judgeVerify_refusedArgument {s : State} {index : Byte} (h : s.verifiableAt index = none) :
    s.judgeVerify index = .refusedArgument := by
  simp only [State.judgeVerify, h]

section
variable {s : State} {index : Byte} {r : Region} (h : s.verifiableAt index = some r)
include h

theorem judgeVerify_already (hin : s.attemptInProgress index.toNat = true) : s.judgeVerify index = .already := by
  simp only [State.judgeVerify, h, if_pos hin]

theorem judgeVerify_refusedState (hout : s.attemptInProgress index.toNat = false) (hno : s.allowedTarget index.toNat r = false) :
    s.judgeVerify index = .refusedState := by
  simp [State.judgeVerify, h, hout, hno]

theorem judgeVerify_started (hout : s.attemptInProgress index.toNat = false) (hyes : s.allowedTarget index.toNat r = true) :
    s.judgeVerify index = .started := by
  simp [State.judgeVerify, h, hout, hyes]

end

/-- A VERIFY that is turned away changes nothing but the response. -/
theorem exec_verify_of_turned_away {s : State} (h : s.Listening) {index : Byte} {status : Status} (hjudge : s.judgeVerify index = status)
    (hno : status ≠ .started) :
    exec (.verify index) s = .next
      ({ s.served with response := s.reply 0x04 index status.code [s.stateByte index] }).arbitrate := by
  rw [exec_verify_of_listening h]
  have hjudge' : s.served.judgeVerify index = status := hjudge
  simp only [State.takeVerify, hjudge', if_neg hno, place_eq]
  rfl

/-! ## The grant of a new attempt -/

/-- The lowest free context (R60). -/
theorem freeCtx_eq_some {s : State} {c : Fin 4} (hc : s.ctx c = none) (hlow : ∀ d : Fin 4, d < c → (s.ctx d).isSome = true) :
    s.freeCtx = some c := by
  rw [State.freeCtx, List.find?_eq_some_iff_getElem]
  refine ⟨by simp [hc], c.1, by simp, by simp, fun d hd => ?_⟩
  have hheld := hlow ⟨d, hd.trans c.2⟩ hd
  simpa [Option.isSome_iff_ne_none] using hheld

theorem grants_of_no_free {s : State} (h : s.freeCtx = none) : s.grants = s := by
  simp only [State.grants, grantOne_of_no_free s h]

/-- The grant to a region that waits alone (R39, R60). -/
theorem grants_of_region {s : State} {i : Nat} {c : Fin 4} (hqueue : s.queue = [.region i]) (hfree : s.freeCtx = some c) :
    s.grants = ({ (s.setCtx c (some (s.grantedCtx (.region i)))) with queue := [] } : State).enterHeader c i := by
  have hone : s.grantOne = ({ (s.setCtx c (some (s.grantedCtx (.region i)))) with queue := [] } : State).enterHeader c i := by
    simp only [State.grantOne, hqueue, hfree]
    rfl
  have hempty : s.grantOne.queue = [] := by rw [hone]; rfl
  simp only [State.grants, grantOne_of_empty _ hempty]
  exact hone

theorem settle_runtime (s : State) : s.settle.runtime = s.grants.runtime := by simp [State.settle]
theorem settle_queue (s : State) : s.settle.queue = s.grants.queue := by simp [State.settle]
theorem settle_contexts (s : State) : s.settle.contexts = s.grants.contexts := by simp [State.settle]

/-! ## The new attempt (R58) -/

section
variable {s : State} {index : Byte} {r : Region} {y : Runtime}

/-- A VERIFY that is STARTED sets the new attempt's record, settles and answers with the region's state then reached (R167). -/
theorem exec_verify_of_started (hlisten : s.Listening) (hjudge : s.judgeVerify index = .started) :
    exec (.verify index) s = .next
      ((s.served.newAttempt index.toNat).settle.place 0x04 index .started
        [(s.served.newAttempt index.toNat).settle.stateByte index]).arbitrate := by
  rw [exec_verify_of_listening hlisten]
  have hjudge' : s.served.judgeVerify index = .started := hjudge
  simp only [State.takeVerify, hjudge', if_true]

/-- The answer once the settling has left the attempt's record at `x` (R167). -/
theorem verify_answer {x : Runtime} (hregion : s.verifiableAt index = some r)
    (hx : (s.served.newAttempt index.toNat).settle.rt index.toNat = some x) :
    ((s.served.newAttempt index.toNat).settle.place 0x04 index .started
        [(s.served.newAttempt index.toNat).settle.stateByte index]).arbitrate.response
      = s.reply 0x04 index 1 [x.state.code] := by
  have hsame : (s.served.newAttempt index.toNat).settle.verifiableAt index = some r := by
    simp only [State.verifiableAt, region_congr (State.settle_regions _)]
    exact hregion
  rw [State.arbitrate_response, place_eq, stateByte_of_some hsame hx]
  simp only [State.reply, State.settle_response]
  rfl

theorem rt_newAttempt_self (hy : s.rt index.toNat = some y) :
    (s.served.newAttempt index.toNat).rt index.toNat = some (Runtime.fresh s.runNumber .queued) := rt_modRt_self (s := s.served) _ hy

theorem rt_newAttempt_of_ne {k : Nat} (h : k ≠ index.toNat) : (s.served.newAttempt index.toNat).rt k = s.rt k :=
  rt_modRt_of_ne (s := s.served) _ h

/-- With no context free the attempt waits at the queue's tail (R58). -/
theorem started_waits (hfull : s.freeCtx = none) :
    (s.served.newAttempt index.toNat).grants = s.served.newAttempt index.toNat := grants_of_no_free hfull

/-- With a context free, so that none waits, the attempt is granted the lowest one (R58, R60). -/
theorem started_granted (hwork : s.VerifierAtWork) {c : Fin 4} (hfree : s.freeCtx = some c) :
    (s.served.newAttempt index.toNat).grants
      = ({ ((s.served.newAttempt index.toNat).setCtx c (some ((s.served.newAttempt index.toNat).grantedCtx (.region index.toNat)))) with
            queue := [] } : State).enterHeader c index.toNat := by
  have hempty : s.queue = [] := hwork.1.resolve_right fun hfull => by simp [(freeCtx_none_iff s).mpr hfull] at hfree
  refine grants_of_region ?_ hfree
  show s.queue ++ [.region index.toNat] = _
  rw [hempty, List.nil_append]

/-- The runtime records once the event is over are those that the grants leave. -/
theorem rt_started (u : State) (data : List Byte) (k : Nat) :
    (u.settle.place 0x04 index .started data).arbitrate.rt k = u.grants.rt k :=
  (rt_congr (State.arbitrate_runtime _) k).trans (rt_congr (settle_runtime u) k)

end

/-- Settles O33: by the judgement, in its order; and of a VERIFY that is STARTED by whether a context is free. -/
theorem verifyIsTurnedAwayOrStartsANewAttempt : Obligations.VerifyIsTurnedAwayOrStartsANewAttempt := by
  refine ⟨fun index s hlisten => ⟨fun hno => ?_, fun r y hle hr hgate hy => ⟨fun hin => ?_, fun hrest hpaired hunpaired => ?_⟩⟩, ?_⟩
  · have hnone := verifiableAt_eq_none hno
    rw [exec_verify_of_turned_away hlisten (judgeVerify_refusedArgument hnone) nofun, stateByte_of_none hnone]
    rfl
  · have hsome := verifiableAt_eq_some hle hr hgate
    have hprogress : s.attemptInProgress index.toNat = true :=
      (attemptInProgress_iff s _).mpr (hin.imp_left fun h => ⟨y.state, rstate_eq_some_iff.mpr ⟨y, hy, rfl⟩, h⟩)
    rw [exec_verify_of_turned_away hlisten (judgeVerify_already hsome hprogress) nofun, stateByte_of_some hsome hy]
    rfl
  · have hsome := verifiableAt_eq_some hle hr hgate
    have hout := attemptInProgress_of_rest hy hrest fun j p hof hp => (hpaired j p hof hp).1
    have hno : s.allowedTarget index.toNat r = false := by
      rw [← Bool.not_eq_true, allowedTarget_iff]
      rintro (⟨hof, hrole⟩ | ⟨j, p, hof, hp, hstate⟩)
      · obtain ⟨hoptional, hrequired⟩ := hunpaired hof
        obtain hrole | ⟨hrole, hdenied, hrejected⟩ := hrole
        · exact hoptional hrole
        · simp only [State.rstate, hy, Option.map_some, Option.some.injEq] at hrejected
          have hopen := hrequired hrole
          tauto
      · obtain ⟨-, hfailed, hselected⟩ := hpaired j p hof hp
        obtain hstate | ⟨hstate, hother⟩ := hstate
        · exact hfailed hstate
        · exact hother (hselected hstate)
    rw [exec_verify_of_turned_away hlisten (judgeVerify_refusedState hsome hout hno) nofun, stateByte_of_some hsome hy]
    rfl
  · intro index s r y hlisten hwork hle hr hgate hy hrest htarget
    have hsome := verifiableAt_eq_some hle hr hgate
    have hout : s.attemptInProgress index.toNat = false := attemptInProgress_of_rest hy hrest fun j p hof hp hselecting => by
      obtain ⟨hnone, -⟩ | ⟨j', p', hof', hp', hstate⟩ := htarget
      · exact absurd (hnone.symm.trans hof) nofun
      · obtain rfl : j' = j := Option.some.inj (hof'.symm.trans hof)
        obtain rfl : p' = p := Option.some.inj (hp'.symm.trans hp)
        simp [hselecting] at hstate
    have hyes : s.allowedTarget index.toNat r = true := (allowedTarget_iff s _ r).mpr (by
      simpa only [State.rstate, hy, Option.map_some, Option.some.injEq] using htarget)
    refine ⟨_, exec_verify_of_started hlisten (judgeVerify_started hsome hout hyes), fun k hk => ?_, fun hfull => ?_, fun c hc hlow => ?_⟩
    · rw [rt_started]
      cases hfree : s.freeCtx with
      | none => rw [started_waits hfree, rt_newAttempt_of_ne hk]
      | some c =>
        rw [started_granted hwork hfree]
        exact (rt_modRt_of_ne _ hk).trans (rt_newAttempt_of_ne hk)
    · have hfull := started_waits (index := index) ((freeCtx_none_iff s).mpr hfull)
      have hrt : (s.served.newAttempt index.toNat).settle.rt index.toNat = some (Runtime.fresh s.runNumber .queued) := by
        rw [rt_congr (settle_runtime _), hfull]
        exact rt_newAttempt_self hy
      refine ⟨?_, ?_, ?_, verify_answer hsome hrt⟩
      · rw [rt_started, hfull]
        exact rt_newAttempt_self hy
      · rw [State.arbitrate_queue, State.place_queue, settle_queue, hfull]
        rfl
      · rw [State.arbitrate_contexts, State.place_contexts, settle_contexts, hfull]
        rfl
    · have hgranted := started_granted (index := index) hwork (freeCtx_eq_some hc hlow)
      have hrt : (s.served.newAttempt index.toNat).settle.rt index.toNat
          = some ⟨.header, none, none, 0, some c, false, s.runNumber⟩ := by
        rw [rt_congr (settle_runtime _), hgranted]
        exact rt_modRt_self _ (rt_newAttempt_self hy)
      refine ⟨?_, ?_, ?_, verify_answer hsome hrt⟩
      · rw [rt_started, hgranted]
        exact rt_modRt_self _ (rt_newAttempt_self hy)
      · rw [State.arbitrate_queue, State.place_queue, settle_queue, hgranted]
        rfl
      · have hctx : (s.served.newAttempt index.toNat).grantedCtx (.region index.toNat)
            = ⟨.region index.toNat, .header, none, [⟨index.toNat, []⟩], r.base, 80, s.runNumber⟩ := by
          have hbase : (s.served.newAttempt index.toNat).base index.toNat = r.base := by
            rw [State.base, show (s.served.newAttempt index.toNat).region index.toNat = some r from hr]
            rfl
          simp only [State.grantedCtx, State.ownerRegions, List.headD_cons, hbase]
          rfl
        rw [State.arbitrate_contexts, State.place_contexts, settle_contexts, hgranted, ← hctx]
        rfl

end Sys2Proof.Machine
end

section
/-! PROOFS. An accepted write marks STALE the regions it touches (R43, R122): what the marking of one region leaves of another, and the
select rise of a write as the marking and the closing of the event. -/

namespace Sys2Proof.Machine

/-! ## The touched regions -/

theorem touchedRegions_nodup (s : State) (range : Nat × Nat) : (s.touchedRegions range).Nodup := indices_nodup s.regions _

theorem mem_touchedRegions_of_byte {s : State} {lo n i : Nat} {r : Region} (hr : s.region i = some r)
    (hbyte : ∃ a, lo ≤ a ∧ a < lo + n ∧ r.holds a = true) : i ∈ s.touchedRegions (lo, n) :=
  (mem_touchedRegions s _ i).mpr ⟨r, hr, (touched_iff r _).mpr hbyte⟩

/-- A write that touches one region alone. -/
theorem touchedRegions_eq_singleton {s : State} {lo n i : Nat} {r : Region} (hr : s.region i = some r)
    (hbyte : ∃ a, lo ≤ a ∧ a < lo + n ∧ r.holds a = true)
    (hone : ∀ i' r', s.region i' = some r' → (∃ a, lo ≤ a ∧ a < lo + n ∧ r'.holds a = true) → i' = i) :
    s.touchedRegions (lo, n) = [i] := by
  refine List.perm_singleton.mp ((List.perm_ext_iff_of_nodup (touchedRegions_nodup s _) (List.nodup_singleton i)).mpr fun k => ?_)
  rw [List.mem_singleton]
  constructor
  · intro hk
    obtain ⟨r', hr', htouched⟩ := (mem_touchedRegions s _ k).mp hk
    exact hone k r' hr' ((touched_iff r' _).mp htouched)
  · rintro rfl
    exact mem_touchedRegions_of_byte hr hbyte

/-! ## The select rise of an accepted write -/

/-- The state in which an accepted, effective write marks its regions (R102). -/
def State.written (s : State) : State := s.modShadow fun sh => { sh with busy := .busy, writeEnable := .clear, wdPending := false }

theorem judgeRise_of_accepted {s : State} {x : Tx} {e : ClassEntry} (hentry : x.entry = some e) (haccepted : x.accepted = true) :
    s.judgeRise x = s.accept x e.cls := by
  simp only [State.judgeRise, hentry, if_pos haccepted]

theorem handCauses_eq (s : State) (x : Tx) : s.handCauses x = { s with report := (s.handCauses x).report } := by
  unfold State.handCauses
  split <;> rfl

/-- A relayed transaction hands on no request: after its judgement the report, the upstream port and the flash port change alone. -/
theorem rise_of_relay {s : State} {x : Tx} (hrelay : x.handling = .relay) :
    ∃ report up fp, s.rise x = { s.judgeRise x with report, up, fp } := by
  have hno : ¬ (x.handling = .consumed ∧ x.atBoundary = true) := by simp [hrelay]
  rw [State.rise, State.handRequest, if_neg hno, arbitrate_eq, State.endTx, settleMode_eq, handCauses_eq]
  exact ⟨_, _, _, rfl⟩

section
variable {s : State} {x : Tx} {e : ClassEntry} {lo n : Nat} (hselect : s.up.select = true) (htx : s.up.tx = some x)
  (hentry : x.entry = some e) (hphase : x.phase ≠ .dummy) (hreceived : x.received = e.addrBytes) (hrelay : x.handling = .relay)
  (hclass : e.cls ∈ [TxClass.program, .eraseSector, .eraseBlock, .eraseChip]) (hprogram : e.cls = .program → 0 < x.k)
  (hlatch : s.fp.shadow.writeEnable ≠ .clear) (hrange : x.range = some (lo, n))

include hclass hlatch hrange in
theorem accept_write : s.accept x e.cls = (s.written.staleRange (lo, n)).settle := by
  have hwrite : s.acceptWrite x = (s.written.staleRange (lo, n)).settle := by
    simp only [State.acceptWrite, if_neg hlatch, hrange]
    rfl
  rw [← hwrite]
  simp only [List.mem_cons, List.not_mem_nil, or_false] at hclass
  obtain h | h | h | h := hclass <;> rw [h] <;> rfl

include hselect htx hentry hphase hreceived hrelay hclass hprogram hlatch hrange

/-- The write marks the regions it touches, and the event closes (R43, R102). -/
theorem exec_write : ∃ t, exec (.upstreamSelectRise 0) s = .next t ∧ Closes (s.written.staleRange (lo, n)) t
    ∧ t.sigList = (s.written.staleRange (lo, n)).settle.sigList ∧ t.sigUnit = (s.written.staleRange (lo, n)).settle.sigUnit := by
  have haccepted : ({ x with clocks := 0 } : Tx).accepted = true := by
    have hdata : e.cls ≠ .program ∨ 0 < x.k := (em (e.cls = .program)).symm.imp_right hprogram
    simpa [Tx.accepted, Tx.framed, Tx.atBoundary, hphase, hentry, hreceived, hrelay] using hdata
  have hjudge : s.judgeRise { x with clocks := 0 } = (s.written.staleRange (lo, n)).settle :=
    (judgeRise_of_accepted (x := { x with clocks := 0 }) hentry haccepted).trans (accept_write hclass hlatch hrange)
  obtain ⟨report, up, fp, hrise⟩ := rise_of_relay (s := s) (x := { x with clocks := 0 }) hrelay
  rw [hjudge] at hrise
  have hexec : exec (.upstreamSelectRise 0) s = .next (s.rise { x with clocks := 0 }) := by
    simp only [exec, execUpstreamSelectRise, hselect, htx, if_true]
  rw [hrise] at hexec
  have hclose := settle_closes (s.written.staleRange (lo, n))
  generalize (s.written.staleRange (lo, n)).settle = u at hexec hclose ⊢
  refine ⟨_, hexec, hclose.trans ?_, rfl, rfl⟩
  exact closes_of_same rfl rfl rfl rfl fun _ => rfl

end

/-! ## What the marking of another region leaves -/

/-- From `s` to `t` region `i` stands by: the queue and the pairs' slots stay, its record may lose its context at most, a pair it is a
slot of stays, no signature entry joins, and a check in flight is at most withdrawn. -/
structure StandsBy (i : Nat) (s t : State) : Prop where
  waiting : SameWaiting s t
  record : KeepsRecord i s t
  pairs : ∀ j p, s.pair j = some p → p.home = i ∨ p.alternate = i → t.pair j = some p
  entries : ∀ g ∈ t.sigList, g ∈ s.sigList
  check : ∀ g w key rem, t.sigUnit = .checking g w key rem → ∃ w', s.sigUnit = .checking g w' key rem ∧ (w' = true → w = true)

theorem StandsBy.trans {i : Nat} {s t u : State} (h : StandsBy i s t) (h' : StandsBy i t u) : StandsBy i s u := by
  refine ⟨h.waiting.trans h'.waiting, h.record.trans h'.record, fun j p hp hslot => h'.pairs j p (h.pairs j p hp hslot) hslot,
    fun g hg => h.entries g (h'.entries g hg), fun g w key rem hunit => ?_⟩
  obtain ⟨w', hunit', hw⟩ := h'.check g w key rem hunit
  obtain ⟨w'', hunit'', hw'⟩ := h.check g w' key rem hunit'
  exact ⟨w'', hunit'', hw ∘ hw'⟩

/-- What leaves the signature records and the pairs, and the record of the region but for its context, lets it stand by. -/
theorem standsBy_of_record {i : Nat} {s t : State} (hqueue : t.queue = s.queue) (hpairs : t.pairs = s.pairs)
    (hlist : t.sigList = s.sigList) (hunit : t.sigUnit = s.sigUnit) (hrecord : KeepsRecord i s t) : StandsBy i s t :=
  ⟨sameWaiting_of_same hqueue hpairs, hrecord, fun j _ hp _ => (pair_congr hpairs j).trans hp, fun _ hg => hlist ▸ hg,
    fun _ w _ _ h => ⟨w, hunit ▸ h, id⟩⟩

theorem StandsBy.refl (i : Nat) (s : State) : StandsBy i s s := standsBy_of_record rfl rfl rfl rfl (.of_rt rfl)

theorem modRt_standsBy {i k : Nat} (s : State) (f : Runtime → Runtime) (h : i ≠ k) : StandsBy i s (s.modRt k f) :=
  standsBy_of_record rfl rfl rfl rfl (.of_rt (rt_modRt_of_ne f h))

theorem setCtx_standsBy (i : Nat) (s : State) (c : Fin 4) (x : Option Ctx) : StandsBy i s (s.setCtx c x) :=
  standsBy_of_record rfl rfl rfl rfl (.of_rt rfl)

theorem releaseOwner_standsBy (i : Nat) (s : State) (o : Owner) : StandsBy i s (s.releaseOwner o) := by
  have hrecord := releaseOwner_keepsRecord i s o
  rw [releaseOwner_eq] at hrecord ⊢
  exact standsBy_of_record rfl rfl rfl rfl hrecord

theorem withdraw_standsBy (i k : Nat) (s : State) : StandsBy i s (s.withdraw k) := by
  refine ⟨sameWaiting_of_same rfl rfl, .of_rt rfl, fun _ _ hp _ => hp, fun g hg => (List.mem_filter.mp hg).1, fun g w key rem h => ?_⟩
  cases hunit : s.sigUnit with
  | idle => simp [State.withdraw, hunit] at h
  | checking g' w' key' rem' =>
    simp only [State.withdraw, hunit, SigUnit.checking.injEq] at h
    obtain ⟨rfl, rfl, rfl, rfl⟩ := h
    exact ⟨w', rfl, fun hw => by simp [hw]⟩

/-- The region is no slot of the pair of this record. -/
theorem region_ne_of_elsewhere {s : State} {i j : Nat} {p : Pair} (hout : i ∉ s.ownerRegions (.pair j)) (hp : s.pair j = some p)
    (slot : Slot) : i ≠ p.region slot := by
  rintro rfl
  exact hout (mem_ownerRegions_pair.mpr ⟨p, hp, by cases slot <;> simp [Pair.region]⟩)

theorem modPair_standsBy {i j : Nat} {s : State} (f : Pair → Pair) (hout : i ∉ s.ownerRegions (.pair j))
    (h : ∀ p, (f p).home = p.home ∧ (f p).alternate = p.alternate) : StandsBy i s (s.modPair j f) := by
  refine ⟨modPair_sameWaiting h, .of_rt rfl, fun k p hp hslot => ?_, fun _ hg => hg, fun _ w _ _ h => ⟨w, h, id⟩⟩
  have hkj : k ≠ j := by
    rintro rfl
    exact hout (mem_ownerRegions_pair.mpr ⟨p, hp, hslot⟩)
  exact (pair_modPair s j k f).trans ((if_neg hkj).trans hp)

section
variable {i j : Nat} {s : State} (hout : i ∉ s.ownerRegions (.pair j))
include hout

theorem setSelection_standsBy (sel : Selection) : StandsBy i s (s.setSelection j sel) := by
  cases hp : s.pair j with
  | none =>
    simp only [State.setSelection, hp]
    exact .refl i s
  | some p =>
    rw [setSelection_of_pair sel hp]
    refine (modPair_standsBy (fun p => { p with selection := sel }) hout fun _ => ⟨rfl, rfl⟩).trans ?_
    exact standsBy_of_record rfl rfl rfl rfl (.of_rt rfl)

theorem setSelection_state_standsBy (sel : Selection) (st : PairState) :
    StandsBy i s ((s.setSelection j sel).modPair j fun p => { p with state := st }) := by
  have hsel := setSelection_standsBy hout sel
  exact hsel.trans (modPair_standsBy _ (by rwa [hsel.waiting.owners]) fun _ => ⟨rfl, rfl⟩)

theorem failPair_standsBy : StandsBy i s (s.failPair j) :=
  (setSelection_state_standsBy hout .none .failed).trans (releaseOwner_standsBy i _ _)

omit hout in
theorem beginDigest_standsBy {k : Nat} (c : Fin 4) (h : i ≠ k) : StandsBy i s (s.beginDigest c k) := by
  have hrecord : KeepsRecord i s (s.beginDigest c k) := .of_rt (rt_beginDigest_of_ne s c h)
  rw [beginDigest_eq] at hrecord ⊢
  exact standsBy_of_record rfl rfl rfl rfl hrecord

theorem tryCandidate_standsBy (slot : Slot) (st : PairState) : StandsBy i s (s.tryCandidate j slot st) := by
  unfold State.tryCandidate
  split
  · rename_i p c hp _
    exact (setSelection_state_standsBy hout slot.selection st).trans (beginDigest_standsBy c (region_ne_of_elsewhere hout hp slot))
  · exact .refl i s

theorem candidateRejected_standsBy : StandsBy i s (s.candidateRejected j) := by
  cases hp : s.pair j with
  | none =>
    simp only [State.candidateRejected, hp]
    exact .refl i s
  | some p =>
    cases hw : s.waiting p with
    | none =>
      rw [candidateRejected_of_last hp hw]
      exact failPair_standsBy hout
    | some w =>
      rw [candidateRejected_of_waiting hp hw]
      have hescalate : StandsBy i s (s.modPair j fun q => { q with escalated := q.escalated || decide (s.pairGate p = some .observe) }) :=
        modPair_standsBy _ hout fun _ => ⟨rfl, rfl⟩
      exact hescalate.trans (tryCandidate_standsBy (by rwa [hescalate.waiting.owners]) w .tryingSecond)

theorem dropWaiting_standsBy (slot : Slot) (k : Nat) : StandsBy i s (s.dropWaiting j slot k) := by
  have horder : StandsBy i s (s.modPair j fun p => { p with order := p.order.filter (· != slot) }) :=
    modPair_standsBy _ hout fun _ => ⟨rfl, rfl⟩
  unfold State.dropWaiting
  split
  · exact .refl i s
  · dsimp only
    split
    · split
      · exact (horder.trans (setCtx_standsBy i _ _ _)).trans (releaseOwner_standsBy i _ _)
      · exact horder.trans (releaseOwner_standsBy i _ _)
    · split
      · exact horder.trans (setCtx_standsBy i _ _ _)
      · exact horder

end

/-! ## The marking of a region whose pair, if it has one, tries no candidate -/

/-- No pair that region `i` is a slot of tries a candidate. -/
def State.Untried (s : State) (i : Nat) : Prop := ∀ j p, s.pair j = some p → p.home = i ∨ p.alternate = i → p.trying = false

theorem trying_iff (p : Pair) : p.trying = true ↔ p.state = .tryingFirst ∨ p.state = .tryingSecond := by
  cases h : p.state <;> simp [Pair.trying, h]

/-- A pair that tries a candidate is elsewhere. -/
theorem elsewhere_of_trying {s : State} {i j : Nat} {p : Pair} (h : s.Untried i) (hp : s.pair j = some p) (htrying : p.trying = true) :
    i ∉ s.ownerRegions (.pair j) := by
  intro hi
  obtain ⟨q, hq, hslot⟩ := mem_ownerRegions_pair.mp hi
  obtain rfl : p = q := Option.some.inj (hp.symm.trans hq)
  simp [h j p hp hslot] at htrying

theorem StandsBy.untried {i : Nat} {s t : State} (h : StandsBy i s t) (hs : s.Untried i) : t.Untried i := by
  intro j p hp hslot
  have hi : i ∈ s.ownerRegions (.pair j) := by
    rw [← h.waiting.owners]
    exact mem_ownerRegions_pair.mpr ⟨p, hp, hslot⟩
  obtain ⟨q, hq, hqslot⟩ := mem_ownerRegions_pair.mp hi
  obtain rfl : q = p := Option.some.inj ((h.pairs j q hq hqslot).symm.trans hp)
  exact hs j q hq hqslot

theorem staleInProgress_standsBy {i k : Nat} {s : State} (hne : i ≠ k) (hs : s.Untried i) : StandsBy i s (s.staleInProgress k) := by
  have hmark := modRt_standsBy s Runtime.markStale hne
  unfold State.staleInProgress
  dsimp only
  split
  · exact hmark.trans (releaseOwner_standsBy i _ _)
  · split
    · exact hmark
    · rename_i j _ _ p hp
      have hout (htrying : p.trying = true) : i ∉ (s.modRt k Runtime.markStale).ownerRegions (.pair j) := by
        rw [hmark.waiting.owners]
        exact elsewhere_of_trying hs hp htrying
      split
      case h_1 | h_2 => exact hmark.trans (releaseOwner_standsBy i _ _)
      case h_3 => exact hmark
      case h_4 | h_5 =>
        rename_i hstate
        have hout := hout (by simp [Pair.trying, hstate])
        split
        · exact hmark.trans (candidateRejected_standsBy hout)
        · split
          · exact hmark.trans (dropWaiting_standsBy hout _ _)
          · exact hmark

theorem candidateOf_trying {s : State} {k j : Nat} (h : s.candidateOf k = some j) :
    s.pairOf k = some j ∧ ∃ p, s.pair j = some p ∧ p.trying = true ∧ p.selected = some k := by
  obtain ⟨hof, hany⟩ := Option.filter_eq_some_iff.mp h
  obtain ⟨p, hp, hcandidate⟩ := (Option.any_eq_true _ _).mp hany
  simp only [Bool.and_eq_true, Pair.isSelection, beq_iff_eq] at hcandidate
  exact ⟨hof, p, hp, hcandidate⟩

/-- The marking of another region lets a region stand by whose own pair tries no candidate. -/
theorem staleRegion_standsBy {i k : Nat} {s : State} (hne : i ≠ k) (hs : s.Untried i) : StandsBy i s (s.staleRegion k) := by
  have hmark := modRt_standsBy s Runtime.markStale hne
  unfold State.staleRegion
  split
  case h_1 | h_2 | h_3 | h_4 => exact .refl i s
  case h_5 | h_6 => exact staleInProgress_standsBy hne hs
  case h_7 =>
    have hwithdraw := hmark.trans (withdraw_standsBy i k _)
    dsimp only
    split
    · rename_i j hcandidate
      obtain ⟨-, p, hp, htrying, -⟩ := candidateOf_trying hcandidate
      refine hwithdraw.trans (candidateRejected_standsBy ?_)
      rw [hwithdraw.waiting.owners]
      exact elsewhere_of_trying hs hp htrying
    · exact hwithdraw
  case h_8 | h_9 => exact hmark

theorem foldl_staleRegion_standsBy {i : Nat} : ∀ (l : List Nat) (s : State), i ∉ l → s.Untried i → StandsBy i s (l.foldl State.staleRegion s)
  | [], s, _, _ => .refl i s
  | k :: l, s, hi, hs => by
    obtain ⟨hne, hl⟩ := not_or.mp (mt List.mem_cons.mpr hi)
    have hk := staleRegion_standsBy hne hs
    exact hk.trans (foldl_staleRegion_standsBy l _ hl (hk.untried hs))

end Sys2Proof.Machine
end

section
/-! PROOFS. What a write makes of a region it touches (R43, R49, R51): the mark and the withdrawal, a waiting candidate that leaves its
pair's order, and a candidate that gives way to the waiting one or fails the pair. -/

namespace Sys2Proof.Machine

/-! ## Withdrawn signature entries -/

/-- No signature entry of region `i` is left that could still count: none on the list, and a check of one is withdrawn (R44). -/
def State.Cleared (s : State) (i : Nat) : Prop :=
  (∀ g ∈ s.sigList, g.region ≠ i) ∧ ∀ g w key rem, s.sigUnit = .checking g w key rem → g.region = i → w = true

theorem withdraw_cleared (s : State) (i : Nat) : (s.withdraw i).Cleared i := by
  refine ⟨fun g hg => by simpa using (List.mem_filter.mp hg).2, fun g w key rem h hi => ?_⟩
  cases hunit : s.sigUnit with
  | idle => simp [State.withdraw, hunit] at h
  | checking g' w' key' rem' =>
    simp only [State.withdraw, hunit, SigUnit.checking.injEq] at h
    obtain ⟨rfl, rfl, -, -⟩ := h
    simp [hi]

theorem StandsBy.cleared {i : Nat} {s t : State} (h : StandsBy i s t) (hs : s.Cleared i) : t.Cleared i := by
  obtain ⟨hlist, hcheck⟩ := hs
  refine ⟨fun g hg => hlist g (h.entries g hg), fun g w key rem hunit hi => ?_⟩
  obtain ⟨w', hunit', hw⟩ := h.check g w key rem hunit
  exact hw (hcheck g w' key rem hunit' hi)

theorem settle_cleared {s : State} {i : Nat} (h : s.Cleared i) : s.settle.Cleared i := by
  obtain ⟨hlist, hcheck⟩ := h
  refine ⟨fun g hg => hlist g (mem_sigList_of_settle hg), fun g w key rem hunit hi => ?_⟩
  obtain hunit | ⟨-, hg⟩ := checking_of_settle hunit
  · exact hcheck g w key rem hunit hi
  · exact absurd hi (hlist g hg)

/-! ## The mark -/

theorem staleRegion_of_left {s : State} {i : Nat} {y : Runtime} (hy : s.rt i = some y)
    (hstate : y.state ∈ [RState.unchecked, .queued, .stale]) : s.staleRegion i = s := by
  have hrstate := rstate_eq_some_iff.mpr ⟨y, hy, rfl⟩
  simp only [List.mem_cons, List.not_mem_nil, or_false] at hstate
  obtain h | h | h := hstate <;> simp only [State.staleRegion, hrstate, h]

theorem candidateOf_of_untried {s : State} {i : Nat} (hs : s.Untried i) : s.candidateOf i = none := by
  cases hcandidate : s.candidateOf i with
  | none => rfl
  | some j =>
    obtain ⟨hof, p, hp, htrying, -⟩ := candidateOf_trying hcandidate
    simp [hs j p hp (slot_of_pairOf hof hp)] at htrying

theorem staleInProgress_marks {s : State} {i : Nat} (hs : s.Untried i) : StandsBy i (s.modRt i Runtime.markStale) (s.staleInProgress i) := by
  unfold State.staleInProgress
  dsimp only
  split
  · exact releaseOwner_standsBy i _ _
  · split
    · exact .refl i _
    · rename_i j hof _ p hp
      have hno := hs j p hp (slot_of_pairOf hof hp)
      split
      case h_1 | h_2 => exact releaseOwner_standsBy i _ _
      case h_3 => exact .refl i _
      case h_4 | h_5 =>
        rename_i hstate
        simp [Pair.trying, hstate] at hno

/-- The mark of a region whose pair, if it has one, tries no candidate (R43). -/
theorem staleRegion_marks {s : State} {i : Nat} {y : Runtime} (hy : s.rt i = some y) (hs : s.Untried i)
    (hstate : y.state ∈ [RState.header, .hashing, .signing, .verified, .rejected]) :
    StandsBy i (s.modRt i Runtime.markStale) (s.staleRegion i) ∧ (y.state = .signing → (s.staleRegion i).Cleared i) := by
  have hrstate := rstate_eq_some_iff.mpr ⟨y, hy, rfl⟩
  have hprogress := staleInProgress_marks hs
  simp only [List.mem_cons, List.not_mem_nil, or_false] at hstate
  obtain h | h | h | h | h := hstate <;> simp only [State.staleRegion, hrstate, h]
  · exact ⟨hprogress, nofun⟩
  · exact ⟨hprogress, nofun⟩
  · rw [candidateOf_of_untried hs]
    exact ⟨withdraw_standsBy i i _, fun _ => withdraw_cleared _ i⟩
  · exact ⟨.refl i _, nofun⟩
  · exact ⟨.refl i _, nofun⟩

/-! ## The mark among those of the other regions touched -/

/-- A write's marking reaches a touched region, which stands by before and after. -/
theorem staleRange_through {s : State} {range : Nat × Nat} {i : Nat} (hi : i ∈ s.touchedRegions range) (hs : s.Untried i)
    (hself : ∀ u : State, StandsBy i s u → (u.staleRegion i).Untried i) :
    ∃ u, StandsBy i s u ∧ StandsBy i (u.staleRegion i) (s.staleRange range) := by
  obtain ⟨before, behind, hsplit⟩ := List.append_of_mem hi
  have hnodup := touchedRegions_nodup s range
  rw [hsplit] at hnodup
  have hbefore : i ∉ before := fun h => (List.nodup_append.mp hnodup).2.2 i h i List.mem_cons_self rfl
  have hbehind : i ∉ behind := (List.nodup_cons.mp (List.nodup_append.mp hnodup).2.1).1
  have hfirst := foldl_staleRegion_standsBy before s hbefore hs
  refine ⟨_, hfirst, ?_⟩
  rw [State.staleRange, hsplit, List.foldl_append, List.foldl_cons]
  exact foldl_staleRegion_standsBy behind _ hbehind (hself _ hfirst)

section
variable {s : State} {range : Nat × Nat} {i : Nat} {y : Runtime} (hi : i ∈ s.touchedRegions range) (hy : s.rt i = some y)
  (hs : s.Untried i)
include hi hy hs

theorem staleRange_leaves (hstate : y.state ∈ [RState.unchecked, .queued, .stale]) : StandsBy i s (s.staleRange range) := by
  have hsame (u : State) (hu : StandsBy i s u) : u.staleRegion i = u := by
    obtain ⟨x, hx, -⟩ := hu.record y hy
    exact staleRegion_of_left hx hstate
  obtain ⟨u, hu, hrest⟩ := staleRange_through hi hs fun u hu => by
    rw [hsame u hu]
    exact hu.untried hs
  rw [hsame u hu] at hrest
  exact hu.trans hrest

/-- The region's record is marked, its context gone and its recorded fields kept; its signature entry is withdrawn (R43, R44). -/
theorem staleRange_marks (hstate : y.state ∈ [RState.header, .hashing, .signing, .verified, .rejected]) :
    SameWaiting s (s.staleRange range)
      ∧ (∀ j p, s.pair j = some p → p.home = i ∨ p.alternate = i → (s.staleRange range).pair j = some p)
      ∧ (s.staleRange range).rt i = some y.markStale
      ∧ (y.state = .signing → (s.staleRange range).Cleared i) := by
  have hmark (u : State) (hu : StandsBy i s u) : ∃ y', u.rt i = some y' ∧ y'.markStale = y.markStale
      ∧ StandsBy i (u.modRt i Runtime.markStale) (u.staleRegion i) ∧ (y.state = .signing → (u.staleRegion i).Cleared i) := by
    obtain ⟨x, hx, -⟩ := hu.record y hy
    exact ⟨_, hx, rfl, staleRegion_marks (y := { y with context := x }) hx (hu.untried hs) hstate⟩
  obtain ⟨u, hu, hrest⟩ := staleRange_through hi hs fun u hu => by
    obtain ⟨-, -, -, hself, -⟩ := hmark u hu
    exact hself.untried (hu.untried hs)
  obtain ⟨y', hy', hsame, hself, hcleared⟩ := hmark u hu
  have hlast := hself.trans hrest
  refine ⟨(hu.waiting.trans (modRt_sameWaiting u i _)).trans hlast.waiting,
    fun j p hp hslot => hlast.pairs j p (hu.pairs j p hp hslot) hslot, ?_, fun h => hrest.cleared (hcleared h)⟩
  rw [← hsame]
  exact hlast.record.of_none (rt_modRt_self _ hy') rfl

end

/-! ## A written waiting candidate -/

theorem slotOf_region {p : Pair} (h : p.home ≠ p.alternate) (slot : Slot) : p.slotOf (p.region slot) = some slot := by
  cases slot
  · simp [Pair.slotOf, Pair.region]
  · simp [Pair.slotOf, Pair.region, h]

/-- The pair without the waiting candidate in its order, its context without the candidate's manifest (R51). -/
def State.waitingDropped (s : State) (j : Nat) (slot : Slot) (i : Nat) (c : Fin 4) (z : Ctx) : State :=
  (s.modPair j fun p => { p with order := p.order.filter (· != slot) }).setCtx c
    (some { z with store := z.store.filter fun m => decide (m.region ≠ i) })

theorem waitingDropped_sameWaiting (s : State) (j : Nat) (slot : Slot) (i : Nat) (c : Fin 4) (z : Ctx) :
    SameWaiting s (s.waitingDropped j slot i c z) := by
  have horder : SameWaiting s (s.modPair j fun p => { p with order := p.order.filter (· != slot) }) :=
    modPair_sameWaiting fun _ => ⟨rfl, rfl⟩
  exact horder.trans (sameWaiting_of_same rfl rfl)

section
variable {s : State} {j i : Nat} {p : Pair} {slot : Slot} {c : Fin 4} {z : Ctx} (hp : s.pair j = some p)
  (hc : s.ctxOf (.pair j) = some c) (hz : s.ctx c = some z)
include hp hc hz

/-- The context goes if the first candidate is SIGNING (R51). -/
theorem dropWaiting_eq : s.dropWaiting j slot i
    = if p.selected.bind s.rstate = some .signing then (s.waitingDropped j slot i c z).releaseCtx c
      else s.waitingDropped j slot i c z := by
  have hctx : (s.modPair j fun p => { p with order := p.order.filter (· != slot) }).ctxOf (.pair j) = some c := hc
  have hheld : (s.modPair j fun p => { p with order := p.order.filter (· != slot) }).ctx c = some z := hz
  have hstore : z.store.filter (fun m => m.region != i) = z.store.filter fun m => decide (m.region ≠ i) :=
    List.filter_congr fun m _ => by by_cases h : m.region = i <;> simp [h]
  have hdropped : ((s.modPair j fun p => { p with order := p.order.filter (· != slot) }).setCtx c
      (some { z with store := z.store.filter fun m => m.region != i })) = s.waitingDropped j slot i c z := by
    rw [hstore]
    rfl
  have hrelease : (s.waitingDropped j slot i c z).releaseOwner (.pair j) = (s.waitingDropped j slot i c z).releaseCtx c :=
    releaseOwner_of_ctxOf
      ((ctxOf_setCtx (x := { z with store := z.store.filter fun m => decide (m.region ≠ i) }) hheld rfl _).trans hctx)
  simp only [State.dropWaiting, hp, hctx, hheld, Option.map_some, hdropped, hrelease]

end

/-! ## A written candidate -/

/-- What the marking of region `i`, of record `y`, has made of the state when its pair moves on: the record is marked, every other one
stays, and of the other records only the signature entries change, none of them being the region's if it was SIGNING. -/
structure Marked (s : State) (i : Nat) (y : Runtime) (u : State) : Prop where
  self : u.rt i = some y.markStale
  others : ∀ k, k ≠ i → u.rt k = s.rt k
  frame : u = { s with runtime := u.runtime, sigList := u.sigList, sigUnit := u.sigUnit }
  cleared : y.state = .signing → u.Cleared i

section
variable {s : State} {i j : Nat} {p : Pair} {y : Runtime} (hy : s.rt i = some y) (hof : s.pairOf i = some j) (hp : s.pair j = some p)
  (htrying : p.state = .tryingFirst ∨ p.state = .tryingSecond) (hselected : p.selected = some i)
include hy hof hp htrying hselected

/-- The marking of a candidate is its mark and the next move of its pair (R43, R49). -/
theorem staleRegion_of_candidate (hstate : y.state = .hashing ∨ y.state = .signing) :
    ∃ u, Marked s i y u ∧ s.staleRegion i = u.candidateRejected j := by
  have hrstate := rstate_eq_some_iff.mpr ⟨y, hy, rfl⟩
  have hself := rt_modRt_self Runtime.markStale hy
  have hothers (k : Nat) (hk : k ≠ i) : (s.modRt i Runtime.markStale).rt k = s.rt k := rt_modRt_of_ne _ hk
  obtain h | h := hstate
  · refine ⟨_, ⟨hself, hothers, rfl, fun hs => absurd (h.symm.trans hs) nofun⟩, ?_⟩
    have hsel : p.isSelection i = true := by simp [Pair.isSelection, hselected]
    simp only [State.staleRegion, hrstate, h, State.staleInProgress, hof, hp]
    obtain ht | ht := htrying <;> simp only [ht, hsel, if_true]
  · refine ⟨(s.modRt i Runtime.markStale).withdraw i, ⟨hself, hothers, rfl, fun _ => withdraw_cleared (s.modRt i Runtime.markStale) i⟩, ?_⟩
    simp only [State.staleRegion, hrstate, h, candidateOf_of_selected hof hp htrying hselected]

end

theorem tryCandidate_rt_of_ne {s : State} {j k : Nat} {slot : Slot} (st : PairState) (h : ∀ p, s.pair j = some p → k ≠ p.region slot) :
    (s.tryCandidate j slot st).rt k = s.rt k := by
  unfold State.tryCandidate
  split
  · rename_i p c hp _
    rw [rt_beginDigest_of_ne _ c (h p hp), setSelection_eq]
    rfl
  · rfl

theorem tryCandidate_sigList (s : State) (j : Nat) (slot : Slot) (st : PairState) : (s.tryCandidate j slot st).sigList = s.sigList := by
  unfold State.tryCandidate
  split
  · rw [beginDigest_eq, setSelection_eq]
    rfl
  · rfl

/-- A rejected candidate that shows no context keeps its record. -/
theorem candidateRejected_rt {s : State} {i : Nat} {t : Runtime} (j : Nat) (ht : s.rt i = some t) (hnone : t.context = none)
    (hstate : t.state ≠ .header) : (s.candidateRejected j).rt i = some t := by
  cases hp : s.pair j with
  | none => simpa only [State.candidateRejected, hp] using ht
  | some p =>
    cases hw : s.waiting p with
    | none =>
      rw [candidateRejected_of_last hp hw]
      exact rt_failPair j ht hnone
    | some w =>
      obtain ⟨t', ht', hheader⟩ := rstate_eq_some_iff.mp (waiting_header hw)
      have hne : i ≠ p.region w := by
        rintro rfl
        exact hstate (Option.some.inj (ht.symm.trans ht') ▸ hheader)
      rw [candidateRejected_of_waiting hp hw]
      refine (tryCandidate_rt_of_ne _ fun q hq => ?_).trans ht
      obtain rfl := Option.some.inj ((pair_modPair_self _ hp).symm.trans hq)
      cases w <;> exact hne

theorem candidateRejected_sigList (s : State) (j : Nat) : (s.candidateRejected j).sigList = s.sigList := by
  cases hp : s.pair j with
  | none => simp only [State.candidateRejected, hp]
  | some p =>
    cases hw : s.waiting p with
    | none => rw [candidateRejected_of_last hp hw, failPair_sigList]
    | some w => rw [candidateRejected_of_waiting hp hw, tryCandidate_sigList, State.modPair_sigList]

/-! ## The three cases of a write -/

theorem untried_of_rest {s : State} {i : Nat}
    (h : ∀ j p, s.pair j = some p → p.home = i ∨ p.alternate = i →
      s.pairOf i = some j ∧ p.state ∈ [PairState.selecting, .selected, .failed]) : s.Untried i := by
  intro j p hp hslot
  obtain ⟨-, hstate⟩ := h j p hp hslot
  cases hs : p.state <;> simp [Pair.trying, hs] at hstate ⊢

/-- A write of one region alone marks that region alone. -/
theorem staleRange_singleton {s : State} {lo n i : Nat} (h : s.touchedRegions (lo, n) = [i]) :
    s.written.staleRange (lo, n) = s.written.staleRegion i := by
  have hwritten : s.written.touchedRegions (lo, n) = [i] := h
  rw [State.staleRange, hwritten]
  rfl

/-- No context of a pair is held once the event is closed, if none was at its closing and the pair does not wait. -/
theorem closed_without_ctx {u t : State} {c : Fin 4} {o : Owner} (hclose : Closes u t) (hctx : u.ctx c = none) (hqueue : o ∉ u.queue)
    (z : Ctx) (hz : t.ctx c = some z) : z.owner ≠ o := by
  rintro rfl
  obtain hz | hin := hclose.granted c z hz
  · simp [hctx] at hz
  · exact hqueue hin

section
variable {s : State} {i j : Nat} {p : Pair} {y : Runtime} {first second : Slot} {c : Fin 4} {z : Ctx}
  (hy : s.rt i = some y) (hstate : y.state = .header) (hof : s.pairOf i = some j) (hp : s.pair j = some p)
  (hfirst : p.state = .tryingFirst) (horder : p.order = [first, second]) (hregions : p.home ≠ p.alternate)
  (hregion : p.region second = i) (hslots : first ≠ second) (hsel : p.selection = first.selection)
  (hc : s.ctxOf (.pair j) = some c) (hz : s.ctx c = some z)
include hy hstate hof hp hfirst horder hregions hregion hslots hsel hc hz

/-- A written waiting candidate is marked and leaves its pair's order; the context stays without its manifest, or goes if the first
candidate is SIGNING (R51). -/
theorem staleRegion_of_waiting : SameWaiting s (s.staleRegion i)
    ∧ (s.staleRegion i).rt i = some y.markStale
    ∧ (s.staleRegion i).pair j = some { p with order := [first] }
    ∧ (s.rstate (p.region first) ≠ some .signing →
        (s.staleRegion i).ctx c = some { z with store := z.store.filter fun m => decide (m.region ≠ i) })
    ∧ (s.rstate (p.region first) = some .signing → (s.staleRegion i).ctx c = none) := by
  have hne : p.region first ≠ i := hregion ▸ (Pair.region_injective hregions).ne hslots
  have hselected : p.selected = some (p.region first) := Pair.selected_of_selection hsel
  have hnosel : p.isSelection i = false := by simp [Pair.isSelection, hselected, hne]
  have hslot : p.slotOf i = some second := hregion ▸ slotOf_region hregions second
  have hrstate := rstate_eq_some_iff.mpr ⟨y, hy, rfl⟩
  have hdrop : s.staleRegion i = (s.modRt i Runtime.markStale).dropWaiting j second i := by
    simp only [State.staleRegion, hrstate, hstate, State.staleInProgress, hof, hp, hfirst, hnosel, hslot, Bool.false_eq_true, if_false]
  have hsigning : p.selected.bind (s.modRt i Runtime.markStale).rstate = s.rstate (p.region first) := by
    rw [hselected, Option.bind_some, State.rstate, rt_modRt_of_ne _ hne]
    rfl
  have horder' : p.order.filter (· != second) = [first] := by
    rw [horder]
    simp [hslots]
  have hmarked : ((s.modRt i Runtime.markStale).waitingDropped j second i c z).rt i = some y.markStale :=
    rt_modRt_self Runtime.markStale hy
  have hpair : ((s.modRt i Runtime.markStale).waitingDropped j second i c z).pair j = some { p with order := [first] } := by
    rw [← horder']
    exact pair_modPair_self (s := s.modRt i Runtime.markStale) (fun p => { p with order := p.order.filter (· != second) }) hp
  have hwaiting := (modRt_sameWaiting s i Runtime.markStale).trans
    (waitingDropped_sameWaiting (s.modRt i Runtime.markStale) j second i c z)
  rw [hdrop, dropWaiting_eq (s := s.modRt i Runtime.markStale) hp hc hz, hsigning]
  split
  · rename_i hsign
    refine ⟨hwaiting.trans (sameWaiting_of_same rfl rfl), ?_, hpair, fun h => absurd hsign h, fun _ => ctx_releaseCtx_self _ c⟩
    rw [rt_releaseCtx, hmarked]
    rfl
  · rename_i hsign
    exact ⟨hwaiting, hmarked, hpair, fun _ => ctx_setCtx_self _ c _, fun h => absurd h hsign⟩

end

section
variable {s u : State} {i j : Nat} {p : Pair} {y : Runtime} (hmark : Marked s i y u) (hp : s.pair j = some p)

include hmark in
theorem Marked.sameWaiting : SameWaiting s u := sameWaiting_of_same (by rw [hmark.frame]) (by rw [hmark.frame])

include hmark hp in
theorem Marked.pair : u.pair j = some p := (pair_congr (by rw [hmark.frame]) j).trans hp

include hmark in
theorem Marked.ctx (c : Fin 4) : u.ctx c = s.ctx c := by rw [State.ctx, hmark.frame]; rfl

include hmark in
theorem Marked.ctxOf (o : Owner) : u.ctxOf o = s.ctxOf o := by simp only [State.ctxOf, hmark.ctx]

include hmark in
theorem Marked.region (k : Nat) : u.region k = s.region k := region_congr (by rw [hmark.frame]) k

include hmark hp

/-- A written candidate behind which none waits fails its pair, and the pair's context goes (R50). -/
theorem written_last (hlast : p.state = .tryingSecond ∨ (p.state = .tryingFirst ∧ p.order.length = 1)) :
    (u.candidateRejected j).pair j = some { p with state := .failed, selection := .none }
      ∧ ∀ c, s.ctxOf (.pair j) = some c → (u.candidateRejected j).ctx c = none := by
  rw [candidateRejected_of_last (hmark.pair hp) (waiting_of_last hlast)]
  exact ⟨pair_failPair (hmark.pair hp), fun c hc => ctx_failPair ((hmark.ctxOf _).trans hc)⟩

/-- A written first candidate gives way to the waiting one, which is tried (R49). -/
theorem written_first {first second : Slot} {y' : Runtime} {m : Recorded} {r' : Region} {c : Fin 4} {z : Ctx}
    (hfirst : p.state = .tryingFirst) (horder : p.order = [first, second]) (hne : p.region second ≠ i)
    (hy' : s.rt (p.region second) = some y') (hheader : y'.state = .header) (hm : y'.recorded = some m)
    (hr' : s.region (p.region second) = some r') (hc : s.ctxOf (.pair j) = some c) (hz : s.ctx c = some z) :
    (u.candidateRejected j).pair j = some { p with
        state := .tryingSecond, selection := second.selection
        escalated := p.escalated || decide (s.pairGate p = some .observe) }
      ∧ (u.candidateRejected j).rt (p.region second) = some { y' with state := .hashing, progress := 0, context := some c }
      ∧ (u.candidateRejected j).ctx c = some { z with
          phase := .payload, digest := some (Digest.begin.absorbAll ((z.manifest (p.region second)).take 16))
          nextRead := r'.base + 256, wanted := m.signedLength } := by
  have hsecond : u.rt (p.region second) = some y' := (hmark.others _ hne).trans hy'
  have hgate : u.pairGate p = s.pairGate p := by rw [State.pairGate, hmark.region]; rfl
  have hctx := (hmark.ctxOf (.pair j)).trans hc
  have hheld := (hmark.ctx c).trans hz
  have hescalated := pair_modPair_self
    (fun q => { q with escalated := q.escalated || decide (u.pairGate p = some .observe) }) (hmark.pair hp)
  rw [candidateRejected_of_waiting (hmark.pair hp) (waiting_of_order hfirst horder hsecond hheader), ← hgate]
  exact ⟨pair_tryCandidate hescalated hctx, rt_tryCandidate hescalated hctx hheld hsecond,
    ctx_tryCandidate hescalated hctx hheld hsecond ((hmark.region _).trans hr') hm⟩

end

/-- Settles O28: a region whose pair tries no candidate by the marking of the touched regions, of which it is one; a candidate, waiting
or tried, by its own marking alone. -/
theorem anAcceptedWriteMarksStale : Obligations.AnAcceptedWriteMarksStale := by
  refine ⟨?_, ?_, ?_⟩
  · intro s x e lo n i r y hselect htx hentry hphase hreceived hrelay hclass hprogram hlatch hrange hr hbyte hy hqueue hpairs
    obtain ⟨t, hexec, hclose, hlist, hunit⟩ :=
      exec_write hselect htx hentry hphase hreceived hrelay hclass hprogram hlatch hrange
    have hi : i ∈ s.written.touchedRegions (lo, n) := mem_touchedRegions_of_byte (s := s) hr hbyte
    have hs : s.written.Untried i := untried_of_rest (s := s) hpairs
    have hpair (hstay : ∀ j p, s.pair j = some p → p.home = i ∨ p.alternate = i → (s.written.staleRange (lo, n)).pair j = some p)
        (j : Nat) (hof : s.pairOf i = some j) : t.pair j = s.pair j := by
      obtain ⟨p, hp⟩ := pairOf_pair hof
      rw [hclose.pair, hp]
      exact hstay j p hp (slot_of_pairOf hof hp)
    refine ⟨t, hexec, ?_⟩
    by_cases hstate : y.state ∈ [RState.header, .hashing, .signing, .verified, .rejected]
    · obtain ⟨hwaiting, hstay, hmarked, hcleared⟩ := staleRange_marks (s := s.written) hi hy hs hstate
      refine ⟨hpair hstay, fun _ => (hclose.rt i (hwaiting.unqueued hqueue)).trans hmarked, fun h => ?_, fun h => ?_⟩
      · obtain h | h := h <;> simp [h] at hstate
      · obtain ⟨hnone, hwithdrawn⟩ := settle_cleared (hcleared h)
        exact ⟨hlist ▸ hnone, hunit ▸ hwithdrawn⟩
    · have hleft : y.state ∈ [RState.unchecked, .queued, .stale] := by
        cases hs : y.state <;> simp [hs] at hstate ⊢
      have hby := staleRange_leaves (s := s.written) hi hy hs hleft
      obtain ⟨ctx, hctx, -⟩ := hby.record y hy
      refine ⟨hpair hby.pairs, fun h => absurd h hstate, fun _ => ?_, fun h => by simp [h] at hstate⟩
      exact ⟨_, (hclose.rt i (hby.waiting.unqueued hqueue)).trans hctx, rfl, rfl⟩
  · intro s x e lo n i r y j p first second c z hselect htx hentry hphase hreceived hrelay hclass hprogram hlatch hrange hr hbyte hone
      hy hstate hof hp hfirst horder hregions hregion hslots hsel hc hz hqueue
    obtain ⟨t, hexec, hclose, -, -⟩ :=
      exec_write hselect htx hentry hphase hreceived hrelay hclass hprogram hlatch hrange
    rw [staleRange_singleton (touchedRegions_eq_singleton hr hbyte hone)] at hclose
    obtain ⟨hwaiting, hmarked, hpair, hkept, hgone⟩ := staleRegion_of_waiting (s := s.written) hy hstate hof hp hfirst horder hregions
      hregion hslots hsel hc hz
    refine ⟨t, hexec, (hclose.rt i (hwaiting.unqueued hqueue)).trans hmarked, (hclose.pair j).trans hpair,
      fun h => hclose.held c _ (hkept h), fun h => closed_without_ctx hclose (hgone h) fun hin => ?_⟩
    rw [hwaiting.queue] at hin
    exact hqueue _ hin (mem_ownerRegions_pair.mpr ⟨p, hp, slot_of_pairOf hof hp⟩)
  · intro s x e lo n i r y j p c z hselect htx hentry hphase hreceived hrelay hclass hprogram hlatch hrange hr hbyte hone
      hy hstate hof hp hregions hselected hqueue
    obtain ⟨t, hexec, hclose, hlist, -⟩ :=
      exec_write hselect htx hentry hphase hreceived hrelay hclass hprogram hlatch hrange
    rw [staleRange_singleton (touchedRegions_eq_singleton hr hbyte hone)] at hclose hlist
    refine ⟨t, hexec, ?_⟩
    by_cases htrying : p.state = .tryingFirst ∨ p.state = .tryingSecond
    · obtain ⟨u, hmark, hmoves⟩ := staleRegion_of_candidate (s := s.written) hy hof hp htrying hselected hstate
      rw [hmoves] at hclose hlist
      have hwaiting := hmark.sameWaiting.trans (candidateRejected_sameWaiting u j)
      have hunqueued : s.Unqueued i := fun o ho hio => by
        obtain ⟨hhome, halt⟩ := hqueue o ho
        obtain hslot | hslot := slot_of_pairOf hof hp
        · exact hhome (hslot ▸ hio)
        · exact halt (hslot ▸ hio)
      refine ⟨fun _ => ⟨?_, fun hsigning g hg => ?_⟩, fun hlast => ?_, ?_⟩
      · refine (hclose.rt i (hwaiting.unqueued hunqueued)).trans (candidateRejected_rt j hmark.self rfl nofun)
      · rw [hlist] at hg
        have hin := mem_sigList_of_settle hg
        rw [candidateRejected_sigList] at hin
        exact (hmark.cleared hsigning).1 g hin
      · obtain ⟨hpair, hctx⟩ := written_last hmark hp hlast
        refine ⟨(hclose.pair j).trans hpair, fun hc => closed_without_ctx hclose (hctx c hc) fun hin => ?_⟩
        rw [hwaiting.queue] at hin
        exact (hqueue _ hin).1 (mem_ownerRegions_pair.mpr ⟨p, hp, .inl rfl⟩)
      · intro first second y' m r' hfirst horder hregion hslots hy' hheader hm hr' hc hz
        have hne : p.region second ≠ i := hregion ▸ (Pair.region_injective hregions).ne hslots.symm
        obtain ⟨hpair, hrt, hctx⟩ := written_first hmark hp hfirst horder hne hy' hheader hm hr' hc hz
        have hunqueued' : s.Unqueued (p.region second) := fun o ho => by
          obtain ⟨hhome, halt⟩ := hqueue o ho
          cases second
          · exact hhome
          · exact halt
        exact ⟨(hclose.pair j).trans hpair, (hclose.rt _ (hwaiting.unqueued hunqueued')).trans hrt, hclose.held c _ hctx⟩
    · refine ⟨fun h => absurd h htrying, fun h => ?_, fun _ _ _ _ _ h => absurd (.inl h) htrying⟩
      exact absurd (h.symm.imp_left And.left) htrying

end Sys2Proof.Machine
end

section
/-! PROOFS. The run start (R35 to R37, R153, R157) and RESTART (R168): the queue it builds is the one in R37's order, the four grants that
follow fill the contexts in that order, and the permit decision of the same event ends the run where nothing is REQUIRED. -/

namespace Sys2Proof.Machine

/-! ## The queue of a run start (R37) -/

/-- One owner waits before another in R37's order. -/
def State.WaitsBefore (s : State) (o o' : Owner) : Prop :=
  s.rankOf o' < s.rankOf o ∨ (s.rankOf o' = s.rankOf o ∧ s.placeOf o < s.placeOf o')

/-- The entry that a region of the table gives the queue. -/
def State.queueEntry (s : State) (x : Region × Nat) : Option (Owner × Fin 4) :=
  match s.pairOf x.2 with
  | none => if x.1.verifiable then some (.region x.2, x.1.priority.getD 0) else none
  | some j => if (s.pair j).any fun p => min p.home p.alternate == x.2 then some (.pair j, x.1.priority.getD 0) else none

theorem queueEntries_eq (s : State) : s.queueEntries = s.regions.zipIdx.filterMap s.queueEntry := rfl

theorem queueEntry_eq_some_iff {s : State} {r : Region} {i : Nat} {e : Owner × Fin 4} : s.queueEntry (r, i) = some e ↔
    e.2 = r.priority.getD 0
      ∧ ((e.1 = .region i ∧ s.pairOf i = none ∧ r.gate ≠ .opened)
        ∨ ∃ j p, e.1 = .pair j ∧ s.pairOf i = some j ∧ s.pair j = some p ∧ min p.home p.alternate = i) := by
  obtain ⟨o, pr⟩ := e
  cases hof : s.pairOf i with
  | none =>
    simp [State.queueEntry, hof, verifiable_iff]
    grind
  | some j =>
    obtain ⟨p, hp⟩ := pairOf_pair hof
    simp [State.queueEntry, hof, hp]
    grind

/-- An entry stands at the place of its owner. -/
theorem placeOf_of_queueEntry {s : State} {r : Region} {i : Nat} {e : Owner × Fin 4} (h : s.queueEntry (r, i) = some e) :
    s.placeOf e.1 = i := by
  obtain ⟨-, ⟨ho, -⟩ | ⟨j, p, ho, -, hp, hmin⟩⟩ := queueEntry_eq_some_iff.mp h
  · rw [ho]; rfl
  · simp [ho, State.placeOf, hp, hmin]

/-- And has its owner's priority. -/
theorem rankOf_of_queueEntry {s : State} {r : Region} {i : Nat} {e : Owner × Fin 4} (hr : s.region i = some r)
    (h : s.queueEntry (r, i) = some e) : s.rankOf e.1 = e.2.val := by
  rw [State.rankOf, placeOf_of_queueEntry h, hr, (queueEntry_eq_some_iff.mp h).1]
  rfl

theorem mem_queueEntries_iff {s : State} {e : Owner × Fin 4} :
    e ∈ s.queueEntries ↔ ∃ i r, s.region i = some r ∧ s.queueEntry (r, i) = some e := by
  rw [queueEntries_eq, List.mem_filterMap]
  constructor
  · rintro ⟨⟨r, i⟩, hm, he⟩
    exact ⟨i, r, List.mk_mem_zipIdx_iff_getElem?.mp hm, he⟩
  · rintro ⟨i, r, hr, he⟩
    exact ⟨(r, i), List.mk_mem_zipIdx_iff_getElem?.mpr hr, he⟩

theorem rankOf_of_mem_queueEntries {s : State} {e : Owner × Fin 4} (h : e ∈ s.queueEntries) : s.rankOf e.1 = e.2.val := by
  obtain ⟨i, r, hr, he⟩ := mem_queueEntries_iff.mp h
  exact rankOf_of_queueEntry hr he

/-- The entries stand in table order. -/
theorem queueEntries_sorted (s : State) : s.queueEntries.Pairwise fun e e' => s.placeOf e.1 < s.placeOf e'.1 := by
  have hindex : s.regions.zipIdx.Pairwise fun x y => x.2 < y.2 := by
    rw [← List.pairwise_map (f := Prod.snd), List.zipIdx_map_snd]
    exact List.pairwise_lt_range'
  rw [queueEntries_eq, List.pairwise_filterMap]
  refine hindex.imp fun hlt e he e' he' => ?_
  rwa [placeOf_of_queueEntry he, placeOf_of_queueEntry he']

theorem mem_runQueue_iff {s : State} {o : Owner} : o ∈ s.runQueue ↔ ∃ e ∈ s.queueEntries, e.1 = o := by
  simp only [State.runQueue, List.mem_flatMap, List.mem_map, List.mem_filter, beq_iff_eq]
  constructor
  · rintro ⟨pr, -, e, ⟨he, -⟩, ho⟩
    exact ⟨e, he, ho⟩
  · rintro ⟨e, he, ho⟩
    have hpr : ∀ pr : Fin 4, pr ∈ ([3, 2, 1, 0] : List (Fin 4)) := by decide
    exact ⟨e.2, hpr e.2, e, ⟨he, rfl⟩, ho⟩

/-- The queue is in R37's order: by priority, within a priority in table order. -/
theorem runQueue_sorted (s : State) : s.runQueue.Pairwise s.WaitsBefore := by
  rw [State.runQueue, List.pairwise_flatMap]
  constructor
  · intro pr _
    rw [List.pairwise_map]
    refine ((queueEntries_sorted s).filter _).imp_of_mem fun he he' hlt => .inr ⟨?_, hlt⟩
    obtain ⟨hm, hpr⟩ := List.mem_filter.mp he
    obtain ⟨hm', hpr'⟩ := List.mem_filter.mp he'
    rw [rankOf_of_mem_queueEntries hm, rankOf_of_mem_queueEntries hm', eq_of_beq hpr, eq_of_beq hpr']
  · have hdown : ([3, 2, 1, 0] : List (Fin 4)).Pairwise fun a b => b < a := by decide
    refine hdown.imp fun hlt o ho o' ho' => .inl ?_
    obtain ⟨e, he, rfl⟩ := List.mem_map.mp ho
    obtain ⟨e', he', rfl⟩ := List.mem_map.mp ho'
    obtain ⟨hm, hpr⟩ := List.mem_filter.mp he
    obtain ⟨hm', hpr'⟩ := List.mem_filter.mp he'
    rw [rankOf_of_mem_queueEntries hm, rankOf_of_mem_queueEntries hm', eq_of_beq hpr, eq_of_beq hpr']
    exact hlt

theorem region_mem_runQueue (s : State) (i : Nat) :
    Owner.region i ∈ s.runQueue ↔ ∃ r, s.region i = some r ∧ r.gate ≠ .opened ∧ s.pairOf i = none := by
  simp only [mem_runQueue_iff, mem_queueEntries_iff, queueEntry_eq_some_iff]
  constructor
  · rintro ⟨e, ⟨k, r, hr, -, ⟨ho, hof, hgate⟩ | ⟨j, p, ho, -⟩⟩, he⟩
    · obtain rfl : i = k := by simpa [he] using ho
      exact ⟨r, hr, hgate, hof⟩
    · simp [he] at ho
  · rintro ⟨r, hr, hgate, hof⟩
    exact ⟨(.region i, r.priority.getD 0), ⟨i, r, hr, rfl, .inl ⟨rfl, hof, hgate⟩⟩, rfl⟩

theorem pair_mem_runQueue (s : State) (j : Nat) :
    Owner.pair j ∈ s.runQueue ↔ ∃ p, s.pair j = some p ∧ (s.region (min p.home p.alternate)).isSome = true
        ∧ s.pairOf (min p.home p.alternate) = some j := by
  simp only [mem_runQueue_iff, mem_queueEntries_iff, queueEntry_eq_some_iff]
  constructor
  · rintro ⟨e, ⟨k, r, hr, -, ⟨ho, -⟩ | ⟨j', p, ho, hof, hp, rfl⟩⟩, he⟩
    · simp [he] at ho
    · obtain rfl : j = j' := by simpa [he] using ho
      exact ⟨p, hp, by simp [hr], hof⟩
  · rintro ⟨p, hp, hr, hof⟩
    obtain ⟨r, hr⟩ := Option.isSome_iff_exists.mp hr
    exact ⟨(.pair j, r.priority.getD 0), ⟨_, r, hr, rfl, .inr ⟨j, p, rfl, hof, hp, rfl⟩⟩, rfl⟩

theorem not_waitsBefore_self (s : State) (o : Owner) : ¬ s.WaitsBefore o o := by
  simp [State.WaitsBefore]

/-- The order of R37 is one list: the queue of the run start. -/
theorem eq_runQueue_of_isRunOrder {s : State} {order : List Owner} (h : s.IsRunOrder order) : order = s.runQueue := by
  obtain ⟨hnodup, hregion, hpair, hsorted⟩ := h
  have hnodup' : s.runQueue.Nodup := (runQueue_sorted s).imp fun hlt => by
    rintro rfl
    exact not_waitsBefore_self s _ hlt
  have hperm : order.Perm s.runQueue := by
    refine (List.perm_ext_iff_of_nodup hnodup hnodup').mpr fun o => ?_
    cases o with
    | region i => rw [hregion, region_mem_runQueue]
    | pair j => rw [hpair, pair_mem_runQueue]
  refine hperm.eq_of_pairwise (fun a b _ _ hab hba => ?_) hsorted (runQueue_sorted s)
  have hab : s.WaitsBefore a b := hab
  simp only [State.WaitsBefore] at hab hba
  omega

/-! ## Four grants (R39, R60) -/

/-- What a grant of context `c` makes of the record of a region that it is for. -/
def Runtime.seat (c : Fin 4) (y : Runtime) : Runtime := { y with state := .header, reason := none, context := some c }

theorem Runtime.seat_seat (c d : Fin 4) (y : Runtime) : (y.seat d).seat c = y.seat c := rfl

theorem rt_foldl_seat (c : Fin 4) (i : Nat) (is : List Nat) (s : State) :
    (is.foldl (fun t k => t.enterHeader c k) s).rt i = if i ∈ is then (s.rt i).map (Runtime.seat c) else s.rt i := by
  induction is generalizing s with
  | nil => simp
  | cons k is ih =>
    have hone : (s.enterHeader c k).rt i = if i = k then (s.rt i).map (Runtime.seat c) else s.rt i := rt_modRt ..
    rw [List.foldl_cons, ih, hone]
    by_cases hk : i = k
    · subst hk
      cases s.rt i <;> simp [Runtime.seat_seat]
    · simp [hk]

theorem rt_grantOne_of_both {s : State} {o : Owner} {rest : List Owner} {c : Fin 4} (hq : s.queue = o :: rest)
    (hc : s.freeCtx = some c) (i : Nat) :
    s.grantOne.rt i = if i ∈ s.ownerRegions o then (s.rt i).map (Runtime.seat c) else s.rt i := by
  have hone : s.grantOne = (s.ownerRegions o).foldl (fun t k => t.enterHeader c k)
      { (s.setCtx c (some (s.grantedCtx o))) with queue := rest } := by
    simp only [State.grantOne, hq, hc]
  rw [hone, rt_foldl_seat]
  rfl

/-- The owner at place `c` of the queue stands for region `i`. -/
def State.SeatedAt (u : State) (order : List Owner) (i : Nat) (c : Fin 4) : Prop :=
  ∃ o, order[c.1]? = some o ∧ i ∈ u.ownerRegions o

/-- `t` is `u` after `n` grants from the queue `order` to contexts that were all free. -/
structure GrantedTo (u : State) (order : List Owner) (n : Nat) (t : State) : Prop where
  same : t = { u with queue := t.queue, contexts := t.contexts, runtime := t.runtime }
  queue : t.queue = order.drop n
  ctx : ∀ c : Fin 4, t.ctx c = if c.1 < n then order[c.1]?.map u.grantedCtx else none
  rt : ∀ i, (t.rt i = u.rt i ∧ ∀ c : Fin 4, c.1 < n → ¬ u.SeatedAt order i c)
    ∨ ∃ c : Fin 4, c.1 < n ∧ u.SeatedAt order i c ∧ t.rt i = (u.rt i).map (Runtime.seat c)

namespace GrantedTo

variable {u t : State} {order : List Owner}

theorem zero (hq : u.queue = order) (hc : ∀ c, u.ctx c = none) : GrantedTo u order 0 u :=
  ⟨rfl, hq, fun c => by simp [hc c], fun i => .inl ⟨rfl, by simp⟩⟩

theorem ownerRegions {n : Nat} (h : GrantedTo u order n t) (o : Owner) : t.ownerRegions o = u.ownerRegions o := by
  rw [h.same]; rfl

theorem grantedCtx {n : Nat} (h : GrantedTo u order n t) (o : Owner) : t.grantedCtx o = u.grantedCtx o := by
  rw [h.same]; rfl

/-- The next grant. -/
theorem grantOne {c : Fin 4} (h : GrantedTo u order c.1 t) : GrantedTo u order (c.1 + 1) t.grantOne := by
  have hsame : t.grantOne
      = { u with queue := t.grantOne.queue, contexts := t.grantOne.contexts, runtime := t.grantOne.runtime } := by
    rw [grantOne_eq, h.same]
  cases ho : order[c.1]? with
  | none =>
    have hlen : order.length ≤ c.1 := List.getElem?_eq_none_iff.mp ho
    have hone : t.grantOne = t := grantOne_of_empty t (by rw [h.queue, List.drop_eq_nil_of_le hlen])
    rw [hone]
    refine ⟨h.same, by rw [h.queue, List.drop_eq_nil_of_le hlen, List.drop_eq_nil_of_le (by omega)], fun d => ?_, fun i => ?_⟩
    · rw [h.ctx]
      by_cases hd : d.1 < c.1
      · simp [hd, show d.1 < c.1 + 1 by omega]
      · simp [hd, List.getElem?_eq_none_iff.mpr (show order.length ≤ d.1 by omega)]
    · obtain ⟨hrt, hout⟩ | ⟨d, hd, hseat⟩ := h.rt i
      · refine .inl ⟨hrt, fun d hd hseat => ?_⟩
        obtain ⟨o, hod, hi⟩ := hseat
        have hdlen : d.1 < order.length := (List.getElem?_eq_some_iff.mp hod).1
        exact hout d (by omega) ⟨o, hod, hi⟩
      · exact .inr ⟨d, by omega, hseat⟩
  | some o =>
    have hlt : c.1 < order.length := (List.getElem?_eq_some_iff.mp ho).1
    have hq : t.queue = o :: order.drop (c.1 + 1) := by
      rw [h.queue, List.drop_eq_getElem_cons hlt, (List.getElem?_eq_some_iff.mp ho).2]
    have hfree : t.freeCtx = some c := by
      refine freeCtx_eq_some (by simp [h.ctx]) fun d hd => ?_
      have hd : d.1 < c.1 := hd
      simp [h.ctx, hd, show d.1 < order.length by omega]
    obtain ⟨hqueue, hcontexts⟩ := grantOne_of_both t hq hfree
    have hrt := rt_grantOne_of_both hq hfree
    simp only [h.ownerRegions] at hrt
    rw [h.grantedCtx] at hcontexts
    refine ⟨hsame, hqueue, fun d => ?_, fun i => ?_⟩
    · by_cases hd : d = c
      · subst hd
        simp [State.ctx, hcontexts, ho]
      · have hne : c.1 ≠ d.1 := fun he => hd (Fin.ext he.symm)
        have hctx : t.grantOne.ctx d = t.ctx d := by
          simp [State.ctx, hcontexts, hne]
        rw [hctx, h.ctx]
        simp [show d.1 < c.1 + 1 ↔ d.1 < c.1 by omega]
    · rw [hrt i]
      by_cases hi : i ∈ u.ownerRegions o
      · refine .inr ⟨c, by omega, ⟨o, ho, hi⟩, ?_⟩
        obtain ⟨hi', -⟩ | ⟨d, -, -, hi'⟩ := h.rt i <;> rw [if_pos hi, hi']
        cases u.rt i <;> rfl
      · rw [if_neg hi]
        obtain ⟨hi', hout⟩ | ⟨d, hd, hseat⟩ := h.rt i
        · refine .inl ⟨hi', fun d hd hseat => ?_⟩
          by_cases hdc : d = c
          · subst hdc
            obtain ⟨o', ho', hi'⟩ := hseat
            exact hi (Option.some.inj (ho.symm.trans ho') ▸ hi')
          · exact hout d (by omega) hseat
        · exact .inr ⟨d, by omega, hseat⟩

end GrantedTo

/-- With every context free, four grants serve the first four owners of the queue. -/
theorem grants_grantedTo {u : State} (hc : ∀ c, u.ctx c = none) : GrantedTo u u.queue 4 u.grants :=
  (GrantedTo.zero rfl hc).grantOne (c := 0) |>.grantOne (c := 1) |>.grantOne (c := 2) |>.grantOne (c := 3)

end Sys2Proof.Machine
end

section
/-! PROOFS. What the event of a run start leaves (R36, R153, R157), and RESTART (R168). -/

namespace Sys2Proof.Machine

/-- The held condition is that of R156. -/
theorem heldPassed_iff (s : State) : s.heldPassed = true ↔ s.HeldPassed := by
  have hmay (r : Option Role) : mayHold r = true ↔ r = some .required ∨ r = some .optional := by simp [mayHold]
  simp only [State.heldPassed, State.HeldPassed, Bool.and_eq_true, unpairedAll_iff, all_pairs_iff]
  refine and_congr (forall₃_congr fun i r _ => ?_) (forall₃_congr fun j p _ => ?_)
  · simp only [Bool.or_eq_true, Bool.not_eq_true', Bool.and_eq_false_imp, hmay, beq_eq_false_iff_ne]
    tauto
  · simp only [Bool.or_eq_true, Bool.not_eq_true', Bool.and_eq_false_imp, hmay, selectionVerified_iff, State.pairHeld,
      Bool.or_eq_false_iff, beq_eq_false_iff_ne]
    cases p.escalated <;> tauto

/-! ## A run just begun -/

/-- No image of the table is REQUIRED: no unpaired region and no pair. -/
def State.NothingRequired (s : State) : Prop :=
  (∀ i r, s.region i = some r → s.pairOf i = none → r.role ≠ some .required)
    ∧ ∀ j p, s.pair j = some p → s.pairRole p ≠ some .required

/-- Some image of the table is held: a REQUIRED or OPTIONAL one of gate HOLD. -/
def State.HasHeld (s : State) : Prop :=
  (∃ i r, s.region i = some r ∧ r.gate = .hold ∧ (r.role = some .required ∨ r.role = some .optional) ∧ s.pairOf i = none)
    ∨ ∃ j p, s.pair j = some p ∧ s.pairGate p = some .hold ∧ (s.pairRole p = some .required ∨ s.pairRole p = some .optional)

/-- `t` is in VERIFYING over the tables of `s`, each pair afresh, and no attempt has got further than HEADER. -/
structure JustBegun (s t : State) : Prop where
  regions : t.regions = s.regions
  pairs : t.pairs = s.pairs.map Pair.afresh
  permit : t.permit = .verifying
  state : ∀ i st, t.rstate i = some st → st = .queued ∨ st = .header

namespace JustBegun

variable {s t : State}

theorem pair (h : JustBegun s t) (j : Nat) : t.pair j = (s.pair j).map Pair.afresh := by
  simp [State.pair, h.pairs]

theorem pairOf (h : JustBegun s t) (i : Nat) : t.pairOf i = s.pairOf i := by
  rw [State.pairOf, h.pairs, List.findIdx?_map]
  rfl

theorem ownerRegions (h : JustBegun s t) (o : Owner) : t.ownerRegions o = s.ownerRegions o := by
  cases o with
  | region i => rfl
  | pair j =>
    simp only [State.ownerRegions, h.pair]
    cases s.pair j <;> rfl

theorem pairRole (h : JustBegun s t) (p : Pair) : t.pairRole p.afresh = s.pairRole p := by
  simp only [State.pairRole, region_congr h.regions]
  rfl

theorem pairGate (h : JustBegun s t) (p : Pair) : t.pairGate p.afresh = s.pairGate p := by
  simp only [State.pairGate, region_congr h.regions]
  rfl

/-- What holds of every pair of the run holds of every pair of the tables, taken afresh. -/
theorem forall_pair (h : JustBegun s t) {P : Pair → Prop} :
    (∀ j p, t.pair j = some p → P p) ↔ ∀ j p, s.pair j = some p → P p.afresh := by
  simp only [h.pair, Option.map_eq_some_iff]
  exact ⟨fun hall j p hp => hall j _ ⟨p, hp, rfl⟩, fun hall j _ ⟨p, hp, he⟩ => he ▸ hall j p hp⟩

theorem not_isVerified (h : JustBegun s t) (i : Nat) : ¬ t.isVerified i = true := by
  intro hv
  obtain he | he := h.state i .verified (eq_of_beq hv) <;> cases he

/-- The permit condition holds where nothing is REQUIRED. -/
theorem permitCondition_iff (h : JustBegun s t) : t.permitCondition = true ↔ s.NothingRequired := by
  rw [Machine.permitCondition_iff, State.RequiredPassed, h.forall_pair, State.NothingRequired]
  refine and_congr (forall₂_congr fun i r => ?_) (forall₃_congr fun j p _ => ?_)
  · rw [region_congr h.regions, h.pairOf]
    have hv := h.not_isVerified i
    tauto
  · rw [h.pairRole]
    simp [Pair.afresh]

/-- No required image has failed yet. -/
theorem denialCondition (h : JustBegun s t) : t.denialCondition = false := by
  rw [← Bool.not_eq_true, denialCondition_iff]
  rintro (⟨i, r, -, -, -, hst | hst⟩ | ⟨j, p, hp, -, hst⟩)
  · obtain he | he := h.state i _ hst <;> cases he
  · obtain he | he := h.state i _ hst <;> cases he
  · rw [h.pair] at hp
    obtain ⟨p', -, rfl⟩ := Option.map_eq_some_iff.mp hp
    simp [Pair.afresh] at hst

/-- CTRL_HOLD_N is asserted for a held image. -/
theorem holdCondition_iff (h : JustBegun s t) : t.holdCondition = true ↔ s.HasHeld := by
  have hhold : t.holdCondition = !t.heldPassed := by simp only [State.holdCondition, h.permit]
  have hverified := h.not_isVerified
  have hselected (p : Pair) : ¬ ∃ i, p.afresh.selected = some i ∧ t.isVerified i = true := fun ⟨i, _, hi⟩ => hverified i hi
  rw [hhold, Bool.not_eq_true', ← Bool.not_eq_true, heldPassed_iff, State.HeldPassed, h.forall_pair, State.HasHeld, not_and_or]
  push Not
  refine or_congr (exists₂_congr fun i r => ?_) (exists₂_congr fun j p => ?_)
  · rw [region_congr h.regions, h.pairOf]
    have hv := hverified i
    tauto
  · rw [h.pairRole, h.pairGate]
    have hno := hselected p
    have hcalm : p.afresh.escalated = false := rfl
    push Not at hno
    simp only [hcalm]
    tauto

/-- The permit decision ends the run at once where nothing is REQUIRED, and there alone. -/
theorem decidePermit_of_nothing (h : JustBegun s t) (hn : s.NothingRequired) : t.decidePermit = t.endRun .permitted := by
  simp only [State.decidePermit, h.permit, h.permitCondition_iff.mpr hn, if_true]

theorem decidePermit_of_required (h : JustBegun s t) (hn : ¬ s.NothingRequired) : t.decidePermit = t := by
  have hno : t.permitCondition = false := Bool.eq_false_iff.mpr fun hc => hn (h.permitCondition_iff.mp hc)
  simp [State.decidePermit, hno, h.denialCondition]

end JustBegun

/-! ## The event of a run start -/

section
variable (s : State) (cause : StartCause)

theorem newRun_justBegun : JustBegun s (s.newRun cause) where
  regions := rfl
  pairs := rfl
  permit := rfl
  state i st h := by
    obtain ⟨y, hy, rfl⟩ := rstate_eq_some_iff.mp h
    rw [newRun_rt] at hy
    obtain ⟨r, -, hr⟩ := Option.bind_eq_some_iff.mp hy
    split at hr
    · cases hr
      exact .inl rfl
    · cases hr

/-- The records once the outputs have followed the entry to VERIFYING and the contexts are granted. -/
def State.startGrants : State := (s.newRun cause).drive.grants

theorem startGrants_grantedTo : GrantedTo (s.newRun cause).drive s.runQueue 4 (s.startGrants cause) :=
  grants_grantedTo fun c => by simp [State.ctx, State.newRun]

theorem startGrants_justBegun : JustBegun s (s.startGrants cause) where
  regions := by rw [State.startGrants, State.grants_regions]; rfl
  pairs := by rw [State.startGrants, State.grants_pairs]; rfl
  permit := by rw [State.startGrants, State.grants_permit]; rfl
  state i st h := by
    obtain ⟨y, hy, rfl⟩ := rstate_eq_some_iff.mp h
    obtain ⟨hrt, -⟩ | ⟨c, -, -, hrt⟩ := (startGrants_grantedTo s cause).rt i
    · rw [hrt] at hy
      exact (newRun_justBegun s cause).state i _ (rstate_eq_some_iff.mpr ⟨y, hy, rfl⟩)
    · rw [hrt] at hy
      obtain ⟨y', -, rfl⟩ := Option.map_eq_some_iff.mp hy
      exact .inr rfl

/-- With the signature list emptied, no check is taken. -/
theorem startGrants_takeCheck : (s.startGrants cause).takeCheck = s.startGrants cause := by
  obtain he | ⟨e, rest, -, hlist, -⟩ := takeCheck_cases (s.startGrants cause)
  · exact he
  · rw [State.startGrants, State.grants_sigList] at hlist
    cases hlist

/-- A run with nothing REQUIRED ends in the event that starts it. -/
theorem runStart_of_nothing (hn : s.NothingRequired) : s.runStart cause = ((s.startGrants cause).endRun .permitted).drive := by
  show (s.startGrants cause).takeCheck.decidePermit.decideRecovery.drive = _
  rw [startGrants_takeCheck, (startGrants_justBegun s cause).decidePermit_of_nothing hn, decideRecovery_of_not_denied _ (by simp)]

/-- Any other goes on. -/
theorem runStart_of_required (hn : ¬ s.NothingRequired) : s.runStart cause = (s.startGrants cause).drive := by
  have hbegun := startGrants_justBegun s cause
  show (s.startGrants cause).takeCheck.decidePermit.decideRecovery.drive = _
  rw [startGrants_takeCheck, hbegun.decidePermit_of_required hn,
    decideRecovery_of_not_denied _ (by rw [hbegun.permit]; decide)]

/-- Whether or not the run ends at once, the records of regions, pairs and contexts are those the grants leave. -/
theorem runStart_records : ∃ p d rep a o pu, s.runStart cause
    = { s.startGrants cause with permit := p, deadline := d, report := rep, alerts := a, pins := o, pulse := pu } := by
  by_cases hn : s.NothingRequired
  · rw [runStart_of_nothing s cause hn]
    exact ⟨_, _, _, _, _, _, rfl⟩
  · rw [runStart_of_required s cause hn]
    exact ⟨_, _, _, _, _, _, rfl⟩

theorem runStart_rt (i : Nat) : (s.runStart cause).rt i = (s.startGrants cause).rt i := by
  obtain ⟨p, d, rep, a, o, pu, he⟩ := runStart_records s cause
  rw [he]
  rfl

theorem runStart_runNumber : (s.runStart cause).runNumber = nextRun s.runNumber := by
  obtain ⟨p, d, rep, a, o, pu, he⟩ := runStart_records s cause
  rw [he, (startGrants_grantedTo s cause).same]
  rfl

theorem runStart_queue : (s.runStart cause).queue = s.runQueue.drop 4 := by
  obtain ⟨p, d, rep, a, o, pu, he⟩ := runStart_records s cause
  rw [he]
  exact (startGrants_grantedTo s cause).queue

theorem runStart_ctx (c : Fin 4) :
    (s.runStart cause).ctx c = s.runQueue[c.1]?.map (s.newRun cause).drive.grantedCtx := by
  obtain ⟨p, d, rep, a, o, pu, he⟩ := runStart_records s cause
  rw [he]
  exact ((startGrants_grantedTo s cause).ctx c).trans (if_pos c.2)

theorem runStart_pair (j : Nat) : (s.runStart cause).pair j = (s.pair j).map Pair.afresh := by
  obtain ⟨p, d, rep, a, o, pu, he⟩ := runStart_records s cause
  rw [he]
  exact (startGrants_justBegun s cause).pair j

theorem runStart_lists :
    (s.runStart cause).trans = [] ∧ (s.runStart cause).recoverySwap = false ∧ (s.runStart cause).sigList = []
      ∧ (s.runStart cause).sigUnit = s.sigUnit.withdrawn ∧ (s.runStart cause).response = s.response := by
  obtain ⟨p, d, rep, a, o, pu, he⟩ := runStart_records s cause
  rw [he, (startGrants_grantedTo s cause).same]
  exact ⟨rfl, rfl, rfl, rfl, rfl⟩

theorem runStart_permit_of_nothing (hn : s.NothingRequired) : (s.runStart cause).permit = .permitted := by
  rw [runStart_of_nothing s cause hn]
  rfl

theorem runStart_permit_of_required (hn : ¬ s.NothingRequired) : (s.runStart cause).permit = .verifying := by
  rw [runStart_of_required s cause hn]
  exact (startGrants_justBegun s cause).permit

/-- The report, the deadline and the alerts, by whether the run has ended. -/
theorem runStart_run :
    let t := s.runStart cause
    t.report = some ⟨t.runNumber, cause, if t.permit = .verifying then none else some 0, ⟨0, 0, 0, 0⟩⟩
      ∧ t.deadline = (if t.permit = .permitted ∨ s.cfg.deadline = 0 then none else some (100000 * s.cfg.deadline))
      ∧ t.alerts = { s.alerts with denied := false, resultUnread := s.alerts.resultUnread || decide (t.permit = .permitted) } := by
  intro t
  have hnumber : t.runNumber = nextRun s.runNumber := runStart_runNumber s cause
  by_cases hn : s.NothingRequired
  · have hpermit : t.permit = .permitted := runStart_permit_of_nothing s cause hn
    rw [hpermit, hnumber]
    simp only [t, runStart_of_nothing s cause hn]
    rw [(startGrants_grantedTo s cause).same]
    simp [State.newRun, State.runDuration]
  · have hpermit : t.permit = .verifying := runStart_permit_of_required s cause hn
    rw [hpermit, hnumber]
    simp only [t, runStart_of_required s cause hn]
    rw [(startGrants_grantedTo s cause).same]
    simp [State.newRun]

/-! ## The hold pulse of a run start (R157) -/

/-- The second time the outputs are driven in the event, the pulse stays as the first left it. -/
theorem runStart_pulse : (s.runStart cause).pulse = (s.newRun cause).nextPulse := by
  have hsame := (startGrants_grantedTo s cause).same
  have hpulse : (s.startGrants cause).pulse = (s.newRun cause).nextPulse := by rw [hsame]; rfl
  by_cases hn : s.NothingRequired
  · rw [runStart_of_nothing s cause hn, State.drive_pulse, State.nextPulse]
    simpa [State.holdCondition] using hpulse
  · rw [runStart_of_required s cause hn]
    by_cases hheld : s.HasHeld
    · rw [drive_pulse_of_asserted _ ?_, hpulse]
      have hhold := (newRun_justBegun s cause).holdCondition_iff.mpr hheld
      rw [hsame]
      simp [hhold]
    · have hhold := mt (startGrants_justBegun s cause).holdCondition_iff.mp hheld
      rw [State.drive_pulse, State.nextPulse, if_neg (by simp [hhold]), hpulse]

/-- With a held image and the line released it is asserted, and its pulse starts. -/
theorem runStart_hold (hheld : s.HasHeld) (hline : s.pins.ctrlHold = false) :
    (s.runStart cause).pins.ctrlHold = true ∧ (s.runStart cause).pulse = .running (1000 * s.cfg.holdPulse) := by
  have hhold := (newRun_justBegun s cause).holdCondition_iff.mpr hheld
  have hpulse : (s.runStart cause).pulse = .running (1000 * s.cfg.holdPulse) := by
    rw [runStart_pulse]
    exact drive_pulse _ hline hhold
  refine ⟨?_, hpulse⟩
  obtain ⟨u, hu⟩ : ∃ u : State, s.runStart cause = u.drive := ⟨_, rfl⟩
  rw [hu, State.drive_pulse] at hpulse
  rw [hu, State.drive_pins, hpulse]
  exact Bool.or_true _

/-- With none, or with the line asserted already, the pulse stays. -/
theorem runStart_calm (h : ¬ s.HasHeld ∨ s.pins.ctrlHold = true) : (s.runStart cause).pulse = s.pulse := by
  rw [runStart_pulse, State.nextPulse, if_neg]
  · rfl
  · rw [Bool.and_eq_true, (newRun_justBegun s cause).holdCondition_iff]
    rintro ⟨hheld, hline⟩
    have hline : s.pins.ctrlHold = false := by simpa [State.newRun] using hline
    obtain h | h := h
    · exact h hheld
    · simp [hline] at h

/-! ## The records of regions and contexts -/

/-- The records before the grants: a verifiable region's is fresh and QUEUED, the others have none. -/
theorem newRun_rt_of_verifiable {i : Nat} {r : Region} (hr : s.region i = some r) (hgate : r.gate ≠ .opened) :
    (s.newRun cause).drive.rt i = some (Runtime.fresh (nextRun s.runNumber) .queued) := by
  show (s.newRun cause).rt i = _
  rw [newRun_rt, hr, Option.bind_some, if_pos ((verifiable_iff r).mpr hgate)]

theorem newRun_rt_of_opened {i : Nat} {r : Region} (hr : s.region i = some r) (hgate : r.gate = .opened) :
    (s.newRun cause).drive.rt i = none := by
  show (s.newRun cause).rt i = _
  rw [newRun_rt, hr, Option.bind_some, if_neg (by simp [verifiable_iff, hgate])]

theorem newRun_grantedCtx_region {i : Nat} {r : Region} (hr : s.region i = some r) :
    (s.newRun cause).drive.grantedCtx (.region i) = ⟨.region i, .header, none, [⟨i, []⟩], r.base, 80, nextRun s.runNumber⟩ := by
  have hbase : (s.newRun cause).drive.base i = r.base := by
    rw [State.base, show (s.newRun cause).drive.region i = some r from hr]
    rfl
  simp only [State.grantedCtx, State.ownerRegions, List.headD_cons, hbase]
  rfl

theorem newRun_ownerRegions (o : Owner) : (s.newRun cause).drive.ownerRegions o = s.ownerRegions o :=
  (newRun_justBegun s cause).ownerRegions o

theorem newRun_grantedCtx_pair {j : Nat} {p : Pair} {h : Region} (hp : s.pair j = some p) (hr : s.region p.home = some h) :
    (s.newRun cause).drive.grantedCtx (.pair j)
      = ⟨.pair j, .header, none, [⟨p.home, []⟩, ⟨p.alternate, []⟩], h.base, 160, nextRun s.runNumber⟩ := by
  have hbase : (s.newRun cause).drive.base p.home = h.base := by
    rw [State.base, show (s.newRun cause).drive.region p.home = some h from hr]
    rfl
  have howner : s.ownerRegions (.pair j) = [p.home, p.alternate] := by simp [State.ownerRegions, hp]
  simp only [State.grantedCtx, newRun_ownerRegions, howner, List.headD_cons, hbase]
  rfl

/-- A region that only the owner at place `c` stands for is in HEADER in context `c`. -/
theorem runStart_rt_seated {i : Nat} {c : Fin 4} {r : Region} (hr : s.region i = some r) (hgate : r.gate ≠ .opened)
    (hseat : s.SeatedAt s.runQueue i c) (honly : ∀ d, s.SeatedAt s.runQueue i d → d = c) :
    (s.runStart cause).rt i = some ⟨.header, none, none, 0, some c, false, nextRun s.runNumber⟩ := by
  have hseats (d : Fin 4) : (s.newRun cause).drive.SeatedAt s.runQueue i d ↔ s.SeatedAt s.runQueue i d := by
    simp only [State.SeatedAt, newRun_ownerRegions]
  rw [runStart_rt]
  obtain ⟨-, hout⟩ | ⟨d, -, hd, hrt⟩ := (startGrants_grantedTo s cause).rt i
  · exact absurd ((hseats c).mpr hseat) (hout c c.2)
  · rw [hrt, newRun_rt_of_verifiable s cause hr hgate, honly d ((hseats d).mp hd)]
    rfl

/-- A region that no owner served stands for keeps the record of the new run. -/
theorem runStart_rt_unseated {i : Nat} (hout : ∀ d, ¬ s.SeatedAt s.runQueue i d) :
    (s.runStart cause).rt i = (s.newRun cause).drive.rt i := by
  rw [runStart_rt]
  obtain ⟨hrt, -⟩ | ⟨d, -, hd, -⟩ := (startGrants_grantedTo s cause).rt i
  · exact hrt
  · simp only [State.SeatedAt, newRun_ownerRegions] at hd
    exact absurd hd (hout d)

theorem runStart_rt_of_opened {i : Nat} {r : Region} (hr : s.region i = some r) (hgate : r.gate = .opened) :
    (s.runStart cause).rt i = none := by
  rw [runStart_rt]
  obtain ⟨hrt, -⟩ | ⟨d, -, -, hrt⟩ := (startGrants_grantedTo s cause).rt i <;> simp [hrt, newRun_rt_of_opened s cause hr hgate]

/-- A verifiable region's record is fresh: it waits, or is in HEADER in a context. -/
theorem runStart_rt_fresh {i : Nat} {r : Region} (hr : s.region i = some r) (hgate : r.gate ≠ .opened) :
    ∃ x, (s.runStart cause).rt i = some x ∧ x.reason = none ∧ x.recorded = none ∧ x.progress = 0 ∧ x.observed = false
      ∧ x.runTag = nextRun s.runNumber ∧ ((x.state = .queued ∧ x.context = none) ∨ (x.state = .header ∧ x.context.isSome = true)) := by
  have hfresh := newRun_rt_of_verifiable s cause hr hgate
  rw [runStart_rt]
  obtain ⟨hrt, -⟩ | ⟨d, -, -, hrt⟩ := (startGrants_grantedTo s cause).rt i
  · exact ⟨_, hrt.trans hfresh, rfl, rfl, rfl, rfl, rfl, .inl ⟨rfl, rfl⟩⟩
  · exact ⟨_, hrt.trans (by rw [hfresh]; rfl), rfl, rfl, rfl, rfl, rfl, .inr ⟨rfl, rfl⟩⟩

end

/-! ## Which owner of the queue stands for a region -/

/-- An unpaired region is stood for by its own entry alone. -/
theorem seatedAt_iff_of_unpaired {s : State} {order : List Owner} {i : Nat} {c : Fin 4} (hof : s.pairOf i = none) :
    s.SeatedAt order i c ↔ order[c.1]? = some (.region i) := by
  constructor
  · rintro ⟨o, ho, hi⟩
    cases o with
    | region k =>
      obtain rfl : i = k := by simpa [State.ownerRegions] using hi
      exact ho
    | pair j =>
      obtain ⟨p, hp, hslot⟩ := mem_ownerRegions_pair.mp hi
      obtain ⟨hhome, halt⟩ := (pairOf_none_iff s i).mp hof j p hp
      exact (hslot.elim hhome halt).elim
  · exact fun ho => ⟨_, ho, List.mem_singleton_self i⟩

section
variable {s : State} {order : List Owner} (horder : s.IsRunOrder order)
include horder

/-- No two places of the queue are of one owner. -/
theorem place_unique {c d : Nat} {o : Owner} (hc : order[c]? = some o) (hd : order[d]? = some o) : d = c :=
  (List.getElem?_inj (List.getElem?_eq_some_iff.mp hd).1 horder.1).mp (hd.trans hc.symm)

theorem unpaired_of_place {i c : Nat} (hc : order[c]? = some (.region i)) :
    ∃ r, s.region i = some r ∧ r.gate ≠ .opened ∧ s.pairOf i = none := by
  obtain ⟨-, hregion, -⟩ := horder
  exact (hregion i).mp (List.mem_of_getElem? hc)

/-- Where the tables are sound, a slot is stood for by its pair's entry alone. -/
theorem seatedAt_iff_of_slot (hsound : s.TablesSound) {j : Nat} {p : Pair} (hp : s.pair j = some p) (slot : Slot) {c : Fin 4} :
    s.SeatedAt order (p.region slot) c ↔ order[c.1]? = some (.pair j) := by
  obtain ⟨-, hpairs⟩ := hsound
  have hof (j : Nat) (p : Pair) (hp : s.pair j = some p) (slot : Slot) : s.pairOf (p.region slot) = some j :=
    ((hpairs j p hp).2.2 slot).1
  constructor
  · rintro ⟨o, ho, hi⟩
    cases o with
    | region k =>
      obtain rfl : p.region slot = k := by simpa [State.ownerRegions] using hi
      obtain ⟨-, -, -, hnone⟩ := unpaired_of_place horder ho
      exact absurd ((hof j p hp slot).symm.trans hnone) nofun
    | pair j' =>
      obtain ⟨p', hp', hslot⟩ := mem_ownerRegions_pair.mp hi
      obtain ⟨slot', hslot'⟩ : ∃ slot', p'.region slot' = p.region slot := hslot.elim (⟨.home, ·⟩) (⟨.alternate, ·⟩)
      have hsame : s.pairOf (p.region slot) = some j' := hslot' ▸ hof j' p' hp' slot'
      obtain rfl : j' = j := Option.some.inj (hsame.symm.trans (hof j p hp slot))
      exact ho
  · exact fun ho => ⟨_, ho, mem_ownerRegions_pair.mpr ⟨p, hp, by cases slot <;> simp [Pair.region]⟩⟩

end

/-! ## RESTART (R168) -/

theorem exec_restart_of_listening {s : State} (h : s.Listening) : exec .restart s = .next s.served.takeRestart.arbitrate :=
  congrArg Host.Outcome.next (request_of_listening h [0x05])

/-- In VERIFYING it is refused; in the other running states it is a run start. -/
theorem takeRestart_of_verifying {s : State} (h : s.permit = .verifying) :
    s.takeRestart = { s with response := s.reply 0x05 0xFF 4 (leBytes 2 s.runNumber.toNat) } := by
  simp only [State.takeRestart, h, place_eq]
  rfl

theorem takeRestart_of_ended {s : State} (hrunning : s.permit.running = true) (h : s.permit ≠ .verifying) :
    s.takeRestart = { s.runStart .restart with
      response := s.reply 0x05 0xFF 1 (leBytes 2 (nextRun s.runNumber).toNat) } := by
  have hstart : s.takeRestart
      = (s.runStart .restart).place 0x05 0xFF .started (leBytes 2 (s.runStart .restart).runNumber.toNat) := by
    cases hp : s.permit <;> simp [hp, PermitState.running] at hrunning h <;> simp only [State.takeRestart, hp]
  obtain ⟨-, -, -, -, hresponse⟩ := runStart_lists s .restart
  have hreply (status : Byte) (data : List Byte) : (s.runStart .restart).reply 0x05 0xFF status data = s.reply 0x05 0xFF status data := by
    rw [State.reply, hresponse, State.reply]
  rw [runStart_runNumber] at hstart
  rw [hstart, place_eq, hreply]
  rfl

/-- Settles O34: a run start by the queue it builds, the four grants that follow, and the permit decision of the same event; RESTART by the
permit state. -/
theorem aRestartSetsTheRunAfresh : Obligations.ARestartSetsTheRunAfresh := by
  refine ⟨fun cause s order horder => ?_, fun s hlisten => ⟨fun hended => ?_, fun hverifying => ?_⟩⟩
  · obtain rfl := eq_runQueue_of_isRunOrder horder
    intro t held nothingRequired
    have hnumber : t.runNumber = nextRun s.runNumber := runStart_runNumber s cause
    obtain ⟨hreport, hdeadline, halerts⟩ := runStart_run s cause
    obtain ⟨htrans, hswap, hlist, hunit, -⟩ := runStart_lists s cause
    refine ⟨hnumber, ?_, runStart_permit_of_nothing s cause, runStart_permit_of_required s cause, hreport, runStart_queue s cause,
      fun c hc => ?_, fun c i r ho hr => ⟨?_, ?_⟩, fun c j p h ho hp hh => ⟨?_, fun hsound => ?_⟩, fun i hi => ?_,
      fun i r => runStart_rt_of_opened s cause, fun i r hr hgate => ?_, fun j p hp => ?_, htrans, hswap, hlist,
      fun e w key r hs => ?_, fun hs => ?_, hdeadline, halerts, runStart_hold s cause, runStart_calm s cause⟩
    · rw [hnumber, nextRun]
      split <;> bv_omega
    · rw [runStart_ctx, List.getElem?_eq_none_iff.mpr hc]
      rfl
    · rw [hnumber, runStart_ctx, ho, ← newRun_grantedCtx_region s cause hr]
      rfl
    · obtain ⟨r, hr, hgate, hof⟩ := unpaired_of_place horder ho
      have hseat (d : Fin 4) := seatedAt_iff_of_unpaired (order := s.runQueue) (c := d) hof
      rw [hnumber]
      exact runStart_rt_seated s cause hr hgate ((hseat c).mpr ho) fun d hd => Fin.ext (place_unique horder ho ((hseat d).mp hd))
    · rw [hnumber, runStart_ctx, ho, ← newRun_grantedCtx_pair s cause hp hh]
      rfl
    · have hslot (slot : Slot) : t.rt (p.region slot) = some ⟨.header, none, none, 0, some c, false, t.runNumber⟩ := by
        obtain ⟨-, -, hslots⟩ := hsound.2 j p hp
        obtain ⟨-, r, hr, -, hgate⟩ := hslots slot
        have hseat (d : Fin 4) := seatedAt_iff_of_slot horder hsound hp slot (c := d)
        rw [hnumber]
        exact runStart_rt_seated s cause hr hgate ((hseat c).mpr ho) fun d hd => Fin.ext (place_unique horder ho ((hseat d).mp hd))
      exact ⟨hslot .home, hslot .alternate⟩
    · obtain ⟨k, hk⟩ := List.mem_iff_getElem?.mp hi
      rw [List.getElem?_drop] at hk
      obtain ⟨r, hr, hgate, hof⟩ := unpaired_of_place horder hk
      have hout (d : Fin 4) : ¬ s.SeatedAt s.runQueue i d := fun hd => by
        have := place_unique horder hk ((seatedAt_iff_of_unpaired hof).mp hd)
        omega
      rw [hnumber]
      exact (runStart_rt_unseated s cause hout).trans (newRun_rt_of_verifiable s cause hr hgate)
    · rw [hnumber]
      exact runStart_rt_fresh s cause hr hgate
    · exact (runStart_pair s cause j).trans (congrArg _ hp)
    · exact hunit.trans (congrArg _ hs)
    · exact hunit.trans (congrArg _ hs)
  · rw [exec_restart_of_listening hlisten, takeRestart_of_ended (s := s.served) hlisten.2 hended]
    rfl
  · rw [exec_restart_of_listening hlisten, takeRestart_of_verifying (s := s.served) hverifying]
    rfl

end Sys2Proof.Machine
end

section
/-! PROOFS. The verifier stays at work (R60, R74): the closing of an event leaves no grant and no check due, whatever stood before, and an
event that is not closed so frees no context, queues no owner and leaves the signature records. -/

namespace Sys2Proof.Machine

/-! ## The closing of an event leaves nothing due -/

/-- No grant is due (R60): nothing waits in the queue, or every context is held. -/
def State.NoGrantDue (s : State) : Prop := s.queue = [] ∨ ∀ c : Fin 4, (s.ctx c).isSome = true

theorem grantOne_of_noGrantDue {s : State} (h : s.NoGrantDue) : s.grantOne = s := by
  obtain hqueue | hheld := h
  · exact grantOne_of_empty s hqueue
  · exact grantOne_of_no_free s ((freeCtx_none_iff s).mpr hheld)

theorem grants_of_noGrantDue {s : State} (h : s.NoGrantDue) : s.grants = s := by
  simp only [State.grants, grantOne_of_noGrantDue h]

/-- A grant goes to the lowest free context: with `n` contexts held below it, one more is held after it. -/
theorem grantOne_progress {s : State} {n : Nat} (h : s.NoGrantDue ∨ ∀ c : Fin 4, c.val < n → (s.ctx c).isSome = true) :
    s.grantOne.NoGrantDue ∨ ∀ c : Fin 4, c.val < n + 1 → (s.grantOne.ctx c).isSome = true := by
  by_cases hdue : s.NoGrantDue
  · rw [grantOne_of_noGrantDue hdue]
    exact .inl hdue
  · replace h := h.resolve_left hdue
    obtain ⟨hqueue, hfree⟩ := not_or.mp hdue
    obtain ⟨o, rest, hqueue⟩ := List.exists_cons_of_ne_nil hqueue
    obtain ⟨d, hd⟩ := Option.ne_none_iff_exists'.mp (mt (freeCtx_none_iff s).mp hfree)
    obtain ⟨-, hcontexts⟩ := grantOne_of_both s hqueue hd
    obtain ⟨hnone, k, hk, hdk, hbelow⟩ := List.find?_eq_some_iff_getElem.mp hd
    obtain rfl : k = d.val := by simpa using congrArg Fin.val hdk
    right
    intro c hc
    have hctx : s.grantOne.ctx c = if d = c then some (s.grantedCtx o) else s.ctx c := by
      rw [← ctx_setCtx]
      simp [State.ctx, hcontexts]
    rw [hctx]
    split
    · rfl
    · rename_i hne
      by_cases hcd : c.val < d.val
      · simpa [Option.isSome_iff_ne_none] using hbelow c.val hcd
      · refine h c (lt_of_le_of_ne (Nat.le_of_lt_succ hc) fun hcn => ?_)
        have hdn : d.val < n := by
          have hval := Fin.val_ne_of_ne hne
          omega
        have hheld := h d hdn
        rw [Option.isNone_iff_eq_none.mp hnone] at hheld
        cases hheld

/-- Four grants leave none due, there being four contexts (R60). -/
theorem grants_noGrantDue (s : State) : s.grants.NoGrantDue :=
  (grantOne_progress (grantOne_progress (grantOne_progress (grantOne_progress (n := 0) (.inr nofun))))).elim id
    fun h => .inr fun c => h c c.isLt

/-- Whatever stood before, the closing of an event leaves the verifier at work. -/
theorem settle_atWork (s : State) : s.settle.VerifierAtWork := by
  refine ⟨?_, fun hidle => ?_⟩
  · have hdue := grants_noGrantDue s
    simpa [State.settle, State.NoGrantDue, State.ctx] using hdue
  · rw [settle_sigUnit] at hidle
    rw [settle_sigList]
    exact takeCheck_work _ hidle

/-! ## What an event keeps -/

/-- From `s` to `t` the verifier stays at work. -/
def KeepsWork (s t : State) : Prop := s.VerifierAtWork → t.VerifierAtWork

/-- The records that `VerifierAtWork` reads. -/
def State.work (s : State) : List Owner × Vector (Option Ctx) 4 × List SigEntry × SigUnit :=
  (s.queue, s.contexts, s.sigList, s.sigUnit)

theorem KeepsWork.refl (s : State) : KeepsWork s s := id

theorem KeepsWork.trans {s t u : State} (h : KeepsWork s t) (h' : KeepsWork t u) : KeepsWork s u := h' ∘ h

theorem KeepsWork.of_work {s t : State} (h : t.work = s.work) : KeepsWork s t := by
  simp only [State.work, Prod.mk.injEq] at h
  obtain ⟨hqueue, hcontexts, hlist, hunit⟩ := h
  intro hs
  simpa only [State.VerifierAtWork, State.ctx, hqueue, hcontexts, hlist, hunit] using hs

/-- An event that the verifier closes leaves it at work, whatever it did before. -/
theorem KeepsWork.settle (s t : State) : KeepsWork s t.settle := fun _ => settle_atWork t

theorem KeepsWork.arbitrate {s t : State} (h : KeepsWork s t) : KeepsWork s t.arbitrate :=
  h.trans (.of_work (by simp [State.work]))

theorem KeepsWork.settleMode {s t : State} (h : KeepsWork s t) : KeepsWork s t.settleMode :=
  h.trans (.of_work (by simp [State.work]))

/-- The passing of time leaves an idle signature unit idle and a check in progress. -/
theorem elapse_keepsWork (s : State) (d : Nat) : KeepsWork s (s.elapse d) := by
  rintro ⟨hgrant, hcheck⟩
  refine ⟨hgrant, fun hidle => hcheck ?_⟩
  cases hunit : s.sigUnit with
  | idle => rfl
  | checking => simp [SigUnit.lapse, hunit] at hidle

/-- Writing a context frees none. -/
theorem setCtx_keepsWork (s : State) (c : Fin 4) (x : Ctx) : KeepsWork s (s.setCtx c (some x)) := by
  rintro ⟨hgrant, hcheck⟩
  refine ⟨hgrant.imp_right fun hheld d => ?_, hcheck⟩
  rw [ctx_setCtx]
  split
  · rfl
  · exact hheld d

/-- A run start ends by closing its event. -/
theorem runStart_keepsWork (s u : State) (cause : StartCause) : KeepsWork s (u.runStart cause) := .settle s _

/-- A reset leaves nothing that waits. -/
theorem afterReset_keepsWork (s : State) {t : State} (hqueue : t.queue = []) (hlist : t.sigList = []) : KeepsWork s t :=
  fun _ => ⟨.inl hqueue, fun _ => hlist⟩

end Sys2Proof.Machine
end

section
/-! PROOFS. The bytes that a context takes (R61, R66, R69, R71): which byte is the last of a manifest or a payload, and what any other
writes. -/

namespace Sys2Proof.Machine

/-! ## A payload byte -/

/-- The context once payload byte `b` of region `i`, of record `y`, has entered its digest (R63, R66). -/
def State.fedCtx (s : State) (i : Nat) (z : Ctx) (y : Runtime) (b : Byte) : Ctx :=
  { z with
    digest := z.digest.map (·.absorb b), nextRead := s.base i + 256 + (y.progress + 1)
    wanted := (y.recorded.map Recorded.signedLength).getD 0 - (y.progress + 1) }

/-- The record of a region once a payload byte more is absorbed, `seen` by observation (R69). -/
def Runtime.fed (t : Runtime) (seen : Bool) : Runtime := { t with progress := t.progress + 1, observed := t.observed || seen }

/-- The state in which payload byte `b` has entered the digest of context `c`, of record `z`, and counts in the progress of region `i`, of
record `y`; what the byte brings is still to come. -/
def State.fed (s : State) (c : Fin 4) (i : Nat) (z : Ctx) (y : Runtime) (b : Byte) (seen : Bool) : State :=
  (s.setCtx c (some (s.fedCtx i z y b))).modRt i fun t => { t with progress := y.progress + 1, observed := t.observed || seen }

theorem ctx_fed (s : State) (c : Fin 4) (i : Nat) (z : Ctx) (y : Runtime) (b : Byte) (seen : Bool) :
    (s.fed c i z y b seen).ctx c = some (s.fedCtx i z y b) := ctx_setCtx_self s c _

theorem rt_fed {s : State} {i : Nat} {y : Runtime} (c : Fin 4) (z : Ctx) (b : Byte) (seen : Bool) (hy : s.rt i = some y) :
    (s.fed c i z y b seen).rt i = some (y.fed seen) :=
  rt_modRt_self (s := s.setCtx c _) _ hy

theorem rt_fed_of_ne {s : State} {i k : Nat} (c : Fin 4) (z : Ctx) (y : Runtime) (b : Byte) (seen : Bool) (h : k ≠ i) :
    (s.fed c i z y b seen).rt k = s.rt k :=
  rt_modRt_of_ne (s := s.setCtx c _) _ h

theorem lastByte_iff {s : State} {i : Nat} {y : Runtime} (hy : s.rt i = some y) :
    s.lastByte i = true ↔ y.progress + 1 = (y.recorded.map Recorded.signedLength).getD 0 := by
  cases hm : y.recorded <;> simp [State.lastByte, hy, hm]

/-- A payload byte enters the digest; the last one completes it (R66, R69, R71). -/
theorem absorb_eq {s : State} {c : Fin 4} {i : Nat} {z : Ctx} {y : Runtime} (b : Byte) (seen : Bool) (hz : s.ctx c = some z)
    (hy : s.rt i = some y) : s.absorb c i b seen
      = if s.lastByte i then (s.fed c i z y b seen).completeDigest c i else s.fed c i z y b seen := by
  simp only [State.absorb, hz, hy, lastByte_iff hy]
  rfl

/-- A context that hashes a region is held, in PAYLOAD. -/
theorem hashing_ctx {s : State} {c : Fin 4} {i : Nat} (h : s.hashing c = some i) : ∃ z, s.ctx c = some z ∧ z.phase = .payload := by
  unfold State.hashing at h
  split at h
  · cases h
  · rename_i z hz
    split at h
    · rename_i hphase
      exact ⟨z, hz, hphase⟩
    · cases h

/-! ## A manifest byte -/

/-- The context once byte `b` has joined the manifest of region `i`. -/
def Ctx.gathers (z : Ctx) (i : Nat) (b : Byte) : Ctx :=
  { z with
    store := z.store.map fun n => if n.region = i then ⟨n.region, n.bytes ++ [b]⟩ else n
    nextRead := z.nextRead + 1, wanted := z.wanted - 1 }

/-- A byte that is not the eightieth of its manifest is only stored (R61). -/
theorem gather_of_more {s : State} {c : Fin 4} {z : Ctx} {m : Manifest} (b : Byte) (hz : s.ctx c = some z)
    (hm : z.gathering = some m) (hmore : m.bytes.length ≠ 79) : s.gather c b = s.setCtx c (some (z.gathers m.region b)) := by
  simp only [State.gather, hz, hm, if_neg hmore]
  rfl

theorem gather_of_whole {s : State} {c : Fin 4} {z : Ctx} (b : Byte) (hz : s.ctx c = some z) (hm : z.gathering = none) :
    s.gather c b = s := by
  simp only [State.gather, hz, hm]

/-! ## A byte of a burst -/

theorem takeByte_header {s : State} {c : Fin 4} {z : Ctx} (b : Byte) (hz : s.ctx c = some z) (hphase : z.phase = .header) :
    s.takeByte c b = s.gather c b := by
  simp only [State.takeByte, hz, Option.map_some, hphase]

theorem takeByte_payload {s : State} {c : Fin 4} {z : Ctx} {i : Nat} (b : Byte) (hz : s.ctx c = some z) (hphase : z.phase = .payload)
    (hi : s.hashing c = some i) : s.takeByte c b = s.absorb c i b false := by
  simp only [State.takeByte, hz, Option.map_some, hphase, hi]

theorem takeByte_of_none {s : State} {c : Fin 4} (b : Byte)
    (h : s.ctx c = none ∨ ∃ z, s.ctx c = some z ∧ z.phase = .payload ∧ s.hashing c = none) : s.takeByte c b = s := by
  obtain hz | ⟨z, hz, hphase, hi⟩ := h
  · simp only [State.takeByte, hz, Option.map_none]
  · simp only [State.takeByte, hz, Option.map_some, hphase, hi]

theorem completes_header {s : State} {c : Fin 4} {z : Ctx} {m : Manifest} (hz : s.ctx c = some z) (hphase : z.phase = .header)
    (hm : z.gathering = some m) : s.completes c = true ↔ m.bytes.length = 79 := by
  simp [State.completes, hz, hphase, hm]

theorem completes_payload {s : State} {c : Fin 4} {z : Ctx} {i : Nat} (hz : s.ctx c = some z) (hphase : z.phase = .payload)
    (hi : s.hashing c = some i) : s.completes c = s.lastByte i := by
  simp [State.completes, hz, hphase, hi]

/-- A burst's count changes the flash port alone. -/
theorem countBurst_eq (s : State) (c : Fin 4) (left : Nat) : s.countBurst c left = { s with fp := (s.countBurst c left).fp } := by
  unfold State.countBurst
  split
  · split <;> rfl
  · rfl

/-- What a context takes, of a byte that is the last of none (R66): nothing, or the byte joins its manifest or its digest. -/
theorem takeByte_of_more {s : State} {c : Fin 4} (b : Byte) (hmore : s.completes c = false) :
    s.takeByte c b = s ∨ ∃ z, s.ctx c = some z
      ∧ ((∃ i, s.takeByte c b = s.setCtx c (some (z.gathers i b)))
        ∨ ∃ i y, s.takeByte c b = s.fed c i z y b false) := by
  cases hz : s.ctx c with
  | none => exact .inl (takeByte_of_none b (.inl hz))
  | some z =>
    cases hphase : z.phase with
    | header =>
      rw [takeByte_header b hz hphase]
      cases hm : z.gathering with
      | none => exact .inl (gather_of_whole b hz hm)
      | some m =>
        have hlen : m.bytes.length ≠ 79 := fun h => by simp [(completes_header hz hphase hm).mpr h] at hmore
        exact .inr ⟨z, rfl, .inl ⟨_, gather_of_more b hz hm hlen⟩⟩
    | payload =>
      cases hi : s.hashing c with
      | none => exact .inl (takeByte_of_none b (.inr ⟨z, hz, hphase, hi⟩))
      | some i =>
        obtain ⟨y, hy, -⟩ := rstate_eq_some_iff.mp (hashing_rstate hi)
        have hlast : s.lastByte i = false := (completes_payload hz hphase hi).symm.trans hmore
        refine .inr ⟨z, rfl, .inr ⟨i, y, ?_⟩⟩
        rw [takeByte_payload b hz hphase hi, absorb_eq b false hz hy, hlast, if_neg Bool.false_ne_true]

end Sys2Proof.Machine
end

section
/-! PROOFS. Every command, and so every step, keeps the verifier at work: those that free a context, queue an owner or let the signature
unit go idle close their event. -/

namespace Sys2Proof.Machine

/-! ## Bytes for a context -/

theorem fed_keepsWork (s : State) (c : Fin 4) (i : Nat) (z : Ctx) (y : Runtime) (b : Byte) (seen : Bool) :
    KeepsWork s (s.fed c i z y b seen) :=
  (setCtx_keepsWork s c _).trans (.of_work rfl)

theorem execBurstByteReceived_keepsWork {s t : State} {b : Byte} (h : execBurstByteReceived b s = .next t) : KeepsWork s t := by
  unfold execBurstByteReceived at h
  split at h <;> cases h
  · rename_i c left _
    refine KeepsWork.arbitrate ?_
    split
    · exact .settle s _
    · rename_i hmore
      have htake : KeepsWork s (s.takeByte c b) := by
        obtain he | ⟨z, -, ⟨i, he⟩ | ⟨i, y, he⟩⟩ := takeByte_of_more b (Bool.eq_false_iff.mpr hmore) <;> rw [he]
        · exact .refl s
        · exact setCtx_keepsWork s c _
        · exact fed_keepsWork s c i z y b false
      refine htake.trans (.of_work ?_)
      rw [countBurst_eq]
      rfl
  · exact .refl s

theorem offer_keepsWork (s : State) (a : Nat) (b : Byte) : KeepsWork s (s.offer a b) := by
  unfold State.offer
  split
  · rename_i c i hobs
    split
    · exact .settle s _
    · rename_i hmore
      have hi := observer_hashing hobs
      obtain ⟨y, hy, -⟩ := rstate_eq_some_iff.mp (hashing_rstate hi)
      obtain ⟨z, hz, -⟩ := hashing_ctx hi
      rw [absorb_eq b true hz hy, if_neg hmore]
      exact fed_keepsWork s c i z y b true
  · exact .refl s

/-! ## The upstream port -/

theorem wire_keepsWork (s : State) (bs : List Byte) : KeepsWork s (s.wire bs) := by
  obtain ⟨-, -, he⟩ | ⟨-, he⟩ := wire_cases s bs <;> rw [he] <;> exact .of_work rfl

@[simp] theorem forward_work (s : State) (x : Tx) (e : ClassEntry) (bs : List Byte) : (s.forward x e bs).work = s.work := by
  simp [State.work, State.forward]
@[simp] theorem truncate_work (s : State) (x : Tx) : (s.truncate x).work = s.work := by simp [State.work, State.truncate]
@[simp] theorem refuse_work (s : State) (x : Tx) (cls : TxClass) (a : Option Nat) (cause : RefusalCause) :
    (s.refuse x cls a cause).work = s.work := by simp [State.work, State.refuse, State.truncate]
@[simp] theorem place_work (s : State) (code arg : Byte) (status : Status) (data : List Byte) :
    (s.place code arg status data).work = s.work := by simp [State.work]

theorem classify_work (s : State) (x : Tx) (b : Byte) (e : ClassEntry) : (s.classify x b e).work = s.work := by
  unfold State.classify
  split
  case h_1 => simp [State.work]
  case h_2 => simp [State.work, State.truncate]
  case h_3 | h_5 => split <;> simp
  case h_4 => dsimp only; split <;> simp
  all_goals exact forward_work s x e _

theorem address_work (s : State) (x : Tx) (e : ClassEntry) (a : BitVec 32) : (s.address x e a).work = s.work := by
  have hwrite : (s.addressWrite x e a).work = s.work := by
    unfold State.addressWrite
    dsimp only
    split
    · exact refuse_work (s.send _) _ _ _ _
    · simp [State.work]
  unfold State.address
  split
  case h_1 =>
    unfold State.addressRead
    dsimp only
    split <;> simp [State.work]
  case h_2 | h_3 | h_4 => exact hwrite
  all_goals simp [State.work]

theorem readByte_keepsWork (s : State) (x : Tx) (e : ClassEntry) (b : Byte) : KeepsWork s (s.readByte x e b) := by
  unfold State.readByte
  dsimp only
  split
  · exact KeepsWork.trans (.of_work (by simp [State.work])) (offer_keepsWork _ _ b)
  · exact .of_work (by simp [State.work])

theorem serviceByte_work (s : State) (x : Tx) (e : ClassEntry) (b : Byte) : (s.serviceByte x e b).work = s.work := by
  unfold State.serviceByte
  dsimp only
  repeat' split
  all_goals simp [State.work, State.fetched]

theorem snoop_work (s : State) (b : Byte) : (s.snoop b).work = s.work := by
  unfold State.snoop
  split <;> rfl

theorem dataByte_keepsWork (s : State) (x : Tx) (e : ClassEntry) (b : Byte) : KeepsWork s (s.dataByte x e b) := by
  unfold State.dataByte
  dsimp only
  split
  case h_1 => exact .of_work (serviceByte_work s x e b)
  case h_5 => exact readByte_keepsWork s x e b
  case h_6 =>
    split
    · exact .of_work (snoop_work _ b)
    · exact .of_work rfl
  all_goals exact .of_work rfl

theorem execUpstreamDataByte_keepsWork {s t : State} {b : Byte} (h : execUpstreamDataByte b s = .next t) : KeepsWork s t := by
  unfold execUpstreamDataByte at h
  split at h
  · cases h
    split <;> exact .of_work rfl
  · cases h
    split
    · exact (wire_keepsWork s [b]).trans (.of_work rfl)
    · exact .refl s
  · split at h
    · split at h <;> cases h
      · exact dataByte_keepsWork s _ _ b
      · exact .refl s
    · cases h
      exact .refl s

/-! ## Select rise and requests -/

/-- An accepted write closes its event where it touches a range; the other classes leave the verifier. -/
theorem accept_keepsWork (s : State) (x : Tx) (cls : TxClass) : KeepsWork s (s.accept x cls) := by
  have hwrite : KeepsWork s (s.acceptWrite x) := by
    unfold State.acceptWrite
    split
    · exact .refl s
    · dsimp only
      split
      · exact .settle s _
      · exact .of_work rfl
  unfold State.accept
  split
  case h_1 | h_2 | h_3 | h_4 | h_5 => exact hwrite
  all_goals exact .of_work rfl

theorem judgeRise_keepsWork (s : State) (x : Tx) : KeepsWork s (s.judgeRise x) := by
  unfold State.judgeRise
  split
  · exact .refl s
  · split
    · exact accept_keepsWork s x _
    · split <;> exact .of_work rfl

/-- VERIFY and RESTART close the events that they start; the other requests leave the verifier. -/
theorem takeRequest_keepsWork (s : State) (q : Request) : KeepsWork s (s.takeRequest q) := by
  cases q with
  | report => exact .of_work (by simp [State.work, State.takeRequest, State.takeReport])
  | peek => exact .of_work (by simp [State.takeRequest, State.takePeek])
  | unknown code => exact .of_work (place_work ..)
  | restart =>
    change KeepsWork s s.takeRestart
    unfold State.takeRestart
    split
    case h_1 | h_2 => exact (runStart_keepsWork s s .restart).trans (.of_work (place_work ..))
    all_goals exact .of_work (place_work ..)
  | detail index =>
    change KeepsWork s (s.takeDetail index)
    unfold State.takeDetail
    split <;> exact .of_work (place_work ..)
  | verify index =>
    change KeepsWork s (s.takeVerify index)
    unfold State.takeVerify
    dsimp only
    split
    · exact (KeepsWork.settle s (s.newAttempt index.toNat)).trans (.of_work (place_work ..))
    · exact .of_work (place_work ..)
  | raiseFloor kind =>
    change KeepsWork s (s.takeRaise kind)
    unfold State.takeRaise
    dsimp only
    split <;> exact .of_work (by simp [State.work])
  | revoke slot =>
    change KeepsWork s (s.takeRevoke slot)
    unfold State.takeRevoke
    dsimp only
    split <;> exact .of_work (by simp [State.work])

theorem takeBytes_keepsWork (s : State) (bytes : List Byte) : KeepsWork s (s.takeBytes bytes) := by
  unfold State.takeBytes
  split
  · exact takeRequest_keepsWork s _
  · exact .refl s

theorem endTx_keepsWork (s : State) : KeepsWork s s.endTx := KeepsWork.settleMode (.of_work rfl)

theorem rise_keepsWork (s : State) (x : Tx) : KeepsWork s (s.rise x) := by
  have hcauses : KeepsWork (s.judgeRise x) ((s.judgeRise x).handCauses x) := by
    rw [handCauses_eq]
    exact .of_work rfl
  have hend := ((judgeRise_keepsWork s x).trans hcauses).trans (endTx_keepsWork _)
  unfold State.rise State.handRequest
  refine KeepsWork.arbitrate ?_
  split
  · exact hend.trans (takeBytes_keepsWork _ _)
  · exact hend

theorem execUpstreamSelectRise_keepsWork {s t : State} {clocks : Fin 8} (h : execUpstreamSelectRise clocks s = .next t) :
    KeepsWork s t := by
  unfold execUpstreamSelectRise at h
  split at h
  · split at h <;> cases h
    · exact rise_keepsWork s _
    · exact KeepsWork.settleMode (.of_work rfl)
    · exact KeepsWork.settleMode (.of_work rfl)
  · cases h
    exact .refl s

theorem request_keepsWork (s : State) (bytes : List Byte) : KeepsWork s (s.request bytes) := by
  unfold State.request
  split
  · split
    · have hafter : KeepsWork s s.afterService := KeepsWork.settleMode (.of_work rfl)
      exact (hafter.trans (takeBytes_keepsWork _ bytes)).arbitrate
    · exact .refl s
  · split
    · exact rise_keepsWork s _
    · exact .refl s

/-! ## Resets, load and provisioning -/

theorem afterLoad_keepsWork (s : State) : KeepsWork s s.afterLoad := by
  unfold State.afterLoad
  repeat' split
  case h_1 => exact runStart_keepsWork s _ _
  all_goals exact .of_work rfl

theorem burnNext_drive_work (s : State) (want : Store) : (s.burnNext want).drive.work = s.work := by
  unfold State.burnNext
  split <;> simp [State.work]

theorem execResetNAssert_keepsWork {s t : State} (h : execResetNAssert s = .next t) : KeepsWork s t := by
  unfold execResetNAssert at h
  split at h <;> cases h
  · exact .refl s
  · exact afterReset_keepsWork s rfl rfl

theorem execResetNRelease_keepsWork {s t : State} {mode clkbyp cutReads : Bool}
    (h : execResetNRelease mode clkbyp cutReads s = .next t) : KeepsWork s t := by
  unfold execResetNRelease at h
  split at h <;> cases h <;> exact .of_work rfl

theorem execLoadComplete_keepsWork {s t : State} (h : execLoadComplete s = .next t) : KeepsWork s t := by
  unfold execLoadComplete at h
  split at h <;> cases h
  · exact .refl s
  · rename_i reads _
    have hbegin : KeepsWork s { s with load := .none, store := s.store.resolve reads } := .of_work rfl
    exact (hbegin.trans (afterLoad_keepsWork _)).settleMode.arbitrate

theorem execBootstrapReadComplete_keepsWork {s t : State} {image : List Byte} (h : execBootstrapReadComplete image s = .next t) :
    KeepsWork s t := by
  unfold execBootstrapReadComplete at h
  dsimp only at h
  split at h
  · split at h
    · cases h
      exact .of_work rfl
    · split at h
      · cases h
        exact .of_work rfl
      · obtain rfl := Host.Outcome.next.inj h
        exact .of_work (burnNext_drive_work s.freeFlash _)
  · cases h
    exact .refl s

theorem execProvisionCellBurnComplete_keepsWork {s t : State} (h : execProvisionCellBurnComplete s = .next t) : KeepsWork s t := by
  unfold execProvisionCellBurnComplete at h
  split at h
  · obtain rfl := Host.Outcome.next.inj h
    exact (elapse_keepsWork s _).trans (.of_work (burnNext_drive_work _ _))
  · cases h
    exact .refl s
  · cases h
    exact .refl s

/-! ## The other commands of the upstream port -/

theorem execUpstreamSelectAssert_keepsWork {s t : State} (h : execUpstreamSelectAssert s = .next t) : KeepsWork s t := by
  unfold execUpstreamSelectAssert at h
  dsimp only at h
  split at h
  · cases h
    exact .refl s
  · split at h <;> cases h <;> exact .of_work rfl

theorem execInstructionByteComplete_keepsWork {s t : State} {b : Byte} (h : execInstructionByteComplete b s = .next t) :
    KeepsWork s t := by
  unfold execInstructionByteComplete at h
  split at h
  · split at h <;> cases h
    · exact .of_work (classify_work s _ b _)
    · exact .refl s
  · cases h
    exact wire_keepsWork s [b]

theorem execAddressComplete_keepsWork {s t : State} {a : BitVec 32} (h : execAddressComplete a s = .next t) : KeepsWork s t := by
  unfold execAddressComplete at h
  split at h
  · split at h <;> cases h
    · exact .of_work (address_work s _ _ a)
    · exact .refl s
  · cases h
    exact wire_keepsWork s _

theorem execDummyCountComplete_keepsWork {s t : State} (h : execDummyCountComplete s = .next t) : KeepsWork s t := by
  unfold execDummyCountComplete at h
  split at h
  · split at h <;> cases h <;> exact .of_work rfl
  · cases h
    exact .refl s

theorem execUnknownRequest_keepsWork {s t : State} {code : Byte} (h : execUnknownRequest code s = .next t) : KeepsWork s t := by
  unfold execUnknownRequest at h
  split at h <;> cases h
  · exact .refl s
  · exact request_keepsWork s _

theorem execFetch_keepsWork {s t : State} (h : execFetch s = .next t) : KeepsWork s t := by
  unfold execFetch at h
  split at h
  · split at h <;> cases h <;> exact .of_work rfl
  · split at h <;> cases h <;> exact .of_work rfl

/-! ## Completions and expiries -/

/-- A check that ends leaves the unit idle; the event is closed, and the unit takes the next entry (R74, R76). -/
theorem execSignatureCheckComplete_keepsWork {s t : State} (h : execSignatureCheckComplete s = .next t) : KeepsWork s t := by
  unfold execSignatureCheckComplete at h
  split at h <;> cases h
  · exact (KeepsWork.settle s _).arbitrate
  · exact .refl s

theorem execDeadlineExpiry_keepsWork {s t : State} (h : execDeadlineExpiry s = .next t) : KeepsWork s t := by
  unfold execDeadlineExpiry at h
  split at h <;> cases h
  · exact (KeepsWork.settle s _).arbitrate
  · exact .refl s

theorem execHoldPulseExpiry_keepsWork {s t : State} (h : execHoldPulseExpiry s = .next t) : KeepsWork s t := by
  unfold execHoldPulseExpiry at h
  split at h <;> cases h
  · exact (elapse_keepsWork s _).trans (.of_work rfl)
  · exact .refl s
  · exact .refl s

theorem execWakeComplete_keepsWork {s t : State} (h : execWakeComplete s = .next t) : KeepsWork s t := by
  unfold execWakeComplete at h
  split at h <;> cases h
  · exact KeepsWork.arbitrate (.of_work rfl)
  · exact .refl s

theorem execWakeWaitEnd_keepsWork {s t : State} (h : execWakeWaitEnd s = .next t) : KeepsWork s t := by
  unfold execWakeWaitEnd at h
  split at h <;> cases h
  · exact KeepsWork.arbitrate ((elapse_keepsWork s _).trans (.of_work rfl))
  · exact .refl s

theorem execStatusPollComplete_keepsWork {s t : State} {status : Byte} (h : execStatusPollComplete status s = .next t) :
    KeepsWork s t := by
  unfold execStatusPollComplete at h
  split at h <;> cases h
  · refine KeepsWork.arbitrate ?_
    split <;> exact .of_work rfl
  · exact .refl s

theorem execPollWaitEnd_keepsWork {s t : State} (h : execPollWaitEnd s = .next t) : KeepsWork s t := by
  unfold execPollWaitEnd at h
  split at h <;> cases h
  · exact KeepsWork.arbitrate ((elapse_keepsWork s _).trans (.of_work rfl))
  · exact .refl s

theorem execWriteDisableComplete_keepsWork {s t : State} (h : execWriteDisableComplete s = .next t) : KeepsWork s t := by
  unfold execWriteDisableComplete at h
  split at h <;> cases h
  · exact KeepsWork.arbitrate (.of_work rfl)
  · exact .refl s

theorem execSleepComplete_keepsWork {s t : State} (h : execSleepComplete s = .next t) : KeepsWork s t := by
  unfold execSleepComplete at h
  split at h <;> cases h
  · exact KeepsWork.arbitrate (.of_work rfl)
  · exact .refl s

theorem execFloorCellComplete_keepsWork {s t : State} (h : execFloorCellComplete s = .next t) : KeepsWork s t := by
  unfold execFloorCellComplete at h
  split at h <;> cases h
  · exact (elapse_keepsWork s _).trans (.of_work rfl)
  · exact .refl s

theorem execRevokeCellComplete_keepsWork {s t : State} (h : execRevokeCellComplete s = .next t) : KeepsWork s t := by
  unfold execRevokeCellComplete at h
  split at h <;> cases h
  · exact (elapse_keepsWork s _).trans (.of_work rfl)
  · exact .refl s

/-! ## The step -/

theorem exec_keepsWork {c : Instr} {s t : State} (h : exec c s = .next t) : KeepsWork s t := by
  have hrequest {bytes : List Byte} (h : Host.Outcome.next (s.request bytes) = (.next t : Result)) : KeepsWork s t := by
    cases h
    exact request_keepsWork s bytes
  cases c with
  | powerOn =>
    cases h
    exact afterReset_keepsWork s rfl rfl
  | resetNAssert => exact execResetNAssert_keepsWork h
  | resetNRelease => exact execResetNRelease_keepsWork h
  | loadComplete => exact execLoadComplete_keepsWork h
  | bootstrapReadComplete => exact execBootstrapReadComplete_keepsWork h
  | provisionCellBurnComplete => exact execProvisionCellBurnComplete_keepsWork h
  | upstreamSelectAssert => exact execUpstreamSelectAssert_keepsWork h
  | instructionByteComplete => exact execInstructionByteComplete_keepsWork h
  | addressComplete => exact execAddressComplete_keepsWork h
  | dummyCountComplete => exact execDummyCountComplete_keepsWork h
  | upstreamDataByte => exact execUpstreamDataByte_keepsWork h
  | upstreamSelectRise => exact execUpstreamSelectRise_keepsWork h
  | report | peek | detail | verify | restart | raiseFloor | revoke => exact hrequest h
  | fetch => exact execFetch_keepsWork h
  | unknownRequest => exact execUnknownRequest_keepsWork h
  | burstByteReceived => exact execBurstByteReceived_keepsWork h
  | signatureCheckComplete => exact execSignatureCheckComplete_keepsWork h
  | deadlineExpiry => exact execDeadlineExpiry_keepsWork h
  | holdPulseExpiry => exact execHoldPulseExpiry_keepsWork h
  | wakeComplete => exact execWakeComplete_keepsWork h
  | wakeWaitEnd => exact execWakeWaitEnd_keepsWork h
  | statusPollComplete => exact execStatusPollComplete_keepsWork h
  | pollWaitEnd => exact execPollWaitEnd_keepsWork h
  | writeDisableComplete => exact execWriteDisableComplete_keepsWork h
  | sleepComplete => exact execSleepComplete_keepsWork h
  | floorCellComplete => exact execFloorCellComplete_keepsWork h
  | revokeCellComplete => exact execRevokeCellComplete_keepsWork h

/-- Settles O47: an event that is closed leaves nothing due (`settle_atWork`), and every event that is not closed frees no context, queues
no owner and leaves the signature records. -/
theorem everyStepKeepsTheVerifierAtWork : Obligations.EveryStepKeepsTheVerifierAtWork := by
  intro s t hs h
  unfold step at h
  split at h
  · cases h
    exact (elapse_keepsWork s 1).trans (.of_work rfl) hs
  · rename_i c rest _
    have hrest : KeepsWork s { s with pending := rest } := .of_work rfl
    exact hrest.trans (exec_keepsWork h) hs

end Sys2Proof.Machine
end

section
/-! PROOFS. What an event leaves of the signature records once it is closed (R74), and digest completion (R41, R71 to R73): what the last
byte of a payload writes, for a region that owns its context and for a pair's candidate. -/

namespace Sys2Proof.Machine

/-! ## The signature records at the end of an event -/

theorem takeCheck_of_checking {s : State} (h : s.sigUnit ≠ .idle) : s.takeCheck = s := by
  obtain he | ⟨-, -, hunit, -⟩ := takeCheck_cases s
  · exact he
  · exact absurd hunit h

theorem takeCheck_of_nil {s : State} (h : s.sigList = []) : s.takeCheck = s := by
  obtain he | ⟨e, rest, -, hlist, -⟩ := takeCheck_cases s
  · exact he
  · simp [h] at hlist

theorem takeCheck_of_cons {s : State} {e : SigEntry} {rest : List SigEntry} (hunit : s.sigUnit = .idle) (hlist : s.sigList = e :: rest) :
    s.takeCheck = { s with sigList := rest, sigUnit := .checking e false s.keys.slots[e.keySlot].key s.synth.checkTime } := by
  simp only [State.takeCheck, hunit, hlist]

/-- The take reads and writes the signature records alone, with the keys and the check time. -/
theorem takeCheck_congr {s t : State} (hunit : t.sigUnit = s.sigUnit) (hlist : t.sigList = s.sigList) (hkeys : t.keys = s.keys)
    (hsynth : t.synth = s.synth) : t.takeCheck.sigUnit = s.takeCheck.sigUnit ∧ t.takeCheck.sigList = s.takeCheck.sigList := by
  obtain he | ⟨e, rest, hidle, hcons, he⟩ := takeCheck_cases s
  · by_cases hidle : s.sigUnit = .idle
    · have hnil : s.sigList = [] := by simpa only [he, hidle, forall_const] using takeCheck_work s
      rw [he, takeCheck_of_nil (hlist.trans hnil)]
      exact ⟨hunit, hlist⟩
    · rw [he, takeCheck_of_checking (hunit ▸ hidle)]
      exact ⟨hunit, hlist⟩
  · rw [he, takeCheck_of_cons (hunit.trans hidle) (hlist.trans hcons), hkeys, hsynth]
    exact ⟨rfl, rfl⟩

/-- Event `s` ends in `t`: it closes, and the signature unit takes its next check (R74). -/
structure Ends (s t : State) : Prop extends Closes s t where
  sigUnit : t.sigUnit = s.takeCheck.sigUnit
  sigList : t.sigList = s.takeCheck.sigList

theorem settle_ends (s : State) : Ends s s.settle := by
  obtain ⟨hunit, hlist⟩ := takeCheck_congr (s := s) (t := s.grants) (by simp) (by simp) (by simp) (by simp)
  exact ⟨settle_closes s, (settle_sigUnit s).trans hunit, (settle_sigList s).trans hlist⟩

theorem Ends.arbitrate {s t : State} (h : Ends s t) : Ends s t.arbitrate := by
  refine ⟨h.toCloses.trans ?_, ?_, ?_⟩
  · exact closes_of_same (by simp) (by simp) (by simp) (by simp) fun _ => by simp
  · rw [State.arbitrate_sigUnit, h.sigUnit]
  · rw [State.arbitrate_sigList, h.sigList]

/-- The count of a burst comes before the closing, and changes nothing of it. -/
theorem Ends.of_countBurst {s t : State} {c : Fin 4} {left : Nat} (h : Ends (s.countBurst c left) t) : Ends s t := by
  have he := countBurst_eq s c left
  obtain ⟨hunit, hlist⟩ := takeCheck_congr (s := s) (t := s.countBurst c left) (by rw [he]) (by rw [he]) (by rw [he]) (by rw [he])
  refine ⟨Closes.trans ?_ h.toCloses, h.sigUnit.trans hunit, h.sigList.trans hlist⟩
  rw [he]
  exact closes_of_same rfl rfl rfl rfl fun _ => rfl

/-- From `s` to `t` a new entry is handed on: to the tail of the signature list, or straight to an idle signature unit (R73, R74). -/
structure Handed (s : State) (entry : SigEntry) (t : State) : Prop where
  busy : s.sigUnit ≠ .idle → t.sigUnit = s.sigUnit ∧ t.sigList = s.sigList ++ [entry]
  idle : s.sigUnit = .idle →
    t.sigList = [] ∧ t.sigUnit = .checking entry false s.keys.slots[entry.keySlot].key s.synth.checkTime

/-- An entry that joins the list in an event is handed on when it ends, if the verifier was at work. -/
theorem Ends.handed {s u t : State} {entry : SigEntry} (h : Ends u t) (hwork : s.VerifierAtWork)
    (hlist : u.sigList = s.sigList ++ [entry]) (hunit : u.sigUnit = s.sigUnit) (hkeys : u.keys = s.keys) (hsynth : u.synth = s.synth) :
    Handed s entry t := by
  obtain ⟨-, hnil⟩ := hwork
  refine ⟨fun hbusy => ?_, fun hidle => ?_⟩
  · rw [h.sigUnit, h.sigList, takeCheck_of_checking (hunit ▸ hbusy)]
    exact ⟨hunit, hlist⟩
  · rw [hnil hidle, List.nil_append] at hlist
    rw [h.sigUnit, h.sigList, takeCheck_of_cons (hunit.trans hidle) hlist, hkeys, hsynth]
    exact ⟨rfl, rfl⟩

/-! ## The region that a context hashes -/

/-- A context in PAYLOAD hashes the region that owns it, or the selection of the pair that does, while that is HASHING in it (R63). -/
theorem hashing_of_owner {s : State} {c : Fin 4} {z : Ctx} {i : Nat} {y : Runtime} (hz : s.ctx c = some z) (hphase : z.phase = .payload)
    (hy : s.rt i = some y) (hstate : y.state = .hashing) (hc : y.context = some c)
    (howner : z.owner = .region i ∨ ∃ j p, z.owner = .pair j ∧ s.pair j = some p ∧ p.selected = some i) : s.hashing c = some i := by
  have hpayload : s.payloadOf z = some i := by
    obtain howner | ⟨j, p, howner, hp, hselected⟩ := howner
    · simp only [State.payloadOf, howner]
    · simp only [State.payloadOf, howner, hp, Option.bind_some, hselected]
  have hin : s.hashesIn c i = true := by simp [State.hashesIn, hy, hstate, hc]
  simp [State.hashing, hz, hphase, hpayload, hin]

/-! ## A payload byte that enters -/

theorem runtime_modify {s : State} {i : Nat} {y : Runtime} (f : Runtime → Runtime) (hy : s.rt i = some y) :
    s.runtime.modify i (Option.map f) = s.runtime.set i (some (f y)) := by
  have hget : s.runtime[i]? = some (some y) := by simpa [State.rt, Option.join_eq_some_iff] using hy
  obtain ⟨hlt, hyi⟩ := List.getElem?_eq_some_iff.mp hget
  rw [List.modify_eq_set_getElem?, hget]
  rfl

theorem base_of_region {s : State} {i : Nat} {r : Region} (hr : s.region i = some r) : s.base i = r.base := by
  simp [State.base, hr]

/-- A payload byte writes its context and its region's record, and nothing else. -/
theorem fed_eq {s : State} {c : Fin 4} {i : Nat} {z : Ctx} {y : Runtime} {d : Digest} {r : Region} {m : Recorded} (b : Byte) (seen : Bool)
    (hy : s.rt i = some y) (hd : z.digest = some d) (hr : s.region i = some r) (hm : y.recorded = some m) :
    s.fed c i z y b seen = { s with
      contexts := s.contexts.set c
        (some
          { z with
            digest := some (d.absorb b), nextRead := r.base + 256 + (y.progress + 1)
            wanted := m.signedLength - (y.progress + 1) })
      runtime := s.runtime.set i (some { y with progress := y.progress + 1, observed := y.observed || seen }) } := by
  have hctx : s.fedCtx i z y b
      = { z with
          digest := some (d.absorb b), nextRead := r.base + 256 + (y.progress + 1), wanted := m.signedLength - (y.progress + 1) } := by
    simp [State.fedCtx, hd, base_of_region hr, hm]
  rw [State.fed, hctx, State.modRt, State.setCtx_runtime, runtime_modify _ hy]
  rfl

/-! ## Digest completion -/

/-- The record of a region whose digest is complete (R41). -/
def Runtime.sign (t : Runtime) : Runtime := { t with state := .signing, context := none }

/-- The entry that joins the signature list for region `i`, of record `t`, out of context `z` (R73). -/
def Ctx.entryOf (z : Ctx) (i : Nat) (t : Runtime) : SigEntry :=
  { region := i, digest := (z.digest.getD Digest.begin).finish, signature := signatureOf (z.manifest i)
    keySlot := (t.recorded.map Recorded.keySlot).getD 0, runTag := t.runTag }

/-- The state in which region `i` is SIGNING and its entry is on the list; what becomes of the context is still to come. -/
def State.signed (s : State) (i : Nat) (entry : SigEntry) : State :=
  { (s.modRt i Runtime.sign) with sigList := s.sigList ++ [entry] }

section
variable {s : State} {c : Fin 4} {i j : Nat} {z : Ctx} {y : Runtime} {p : Pair} (hz : s.ctx c = some z) (hy : s.rt i = some y)
include hz hy

theorem completeDigest_of_own {k : Nat} (howner : z.owner = .region k) :
    s.completeDigest c i = (s.signed i (z.entryOf i y)).releaseCtx c := by
  simp only [State.completeDigest, hz, hy, howner]
  rfl

theorem completeDigest_of_waiting {w : Slot} (howner : z.owner = .pair j) (hp : s.pair j = some p) (hw : s.waiting p = some w) :
    s.completeDigest c i = (s.signed i (z.entryOf i y)).setCtx c (some { z with digest := none, wanted := 0 }) := by
  simp only [State.completeDigest, hz, hy, howner, hp, Option.bind_some, hw, Option.isSome_some, if_true]
  rfl

theorem completeDigest_of_last (howner : z.owner = .pair j) (hp : s.pair j = some p) (hw : s.waiting p = none) :
    s.completeDigest c i = (s.signed i (z.entryOf i y)).releaseCtx c := by
  simp only [State.completeDigest, hz, hy, howner, hp, Option.bind_some, hw, Option.isSome_none, Bool.false_eq_true, if_false]
  rfl

end

theorem manifest_of_store {z : Ctx} {before behind : List Manifest} {i : Nat} {bs : List Byte}
    (hstore : z.store = before ++ ⟨i, bs⟩ :: behind) (hbefore : ∀ n ∈ before, n.region ≠ i) : z.manifest i = bs := by
  have hnone : before.find? (fun n => n.region == i) = none :=
    List.find?_eq_none.mpr fun n hn => by simp [hbefore n hn]
  simp [Ctx.manifest, hstore, List.find?_append, hnone]

/-- The entry of a region that signed fields `m`, its whole message absorbed and its manifest `bs` (R23, R73). -/
def signatureEntry (i : Nat) (message bs : List Byte) (m : Recorded) (tag : BitVec 16) : SigEntry :=
  { region := i, digest := sha256 message, signature := slice bs 16 64, keySlot := m.keySlot, runTag := tag }

/-- With its last byte the digest is SHA-256 of all that was absorbed (R23). -/
theorem entryOf_fedCtx {s : State} {z : Ctx} {i : Nat} {y : Runtime} {m : Recorded} {message bs : List Byte} (b : Byte) (seen : Bool)
    (hdigest : z.digest = some (Digest.begin.absorbAll message)) (hmanifest : z.manifest i = bs) (hm : y.recorded = some m) :
    (s.fedCtx i z y b).entryOf i (y.fed seen) = signatureEntry i (message ++ [b]) bs m y.runTag := by
  have hstore : (s.fedCtx i z y b).manifest i = bs := hmanifest
  have hfinish : ((s.fedCtx i z y b).digest.getD Digest.begin).finish = sha256 (message ++ [b]) := by
    simp [State.fedCtx, hdigest, sha256, absorbAll_snoc]
  simp [Ctx.entryOf, hstore, hfinish, signatureEntry, signatureOf, Runtime.fed, hm]

/-! ## The candidate behind -/

/-- The slot `w` of pair `p` waits while the first candidate is tried (R47). -/
def State.Waits (s : State) (p : Pair) (w : Slot) : Prop :=
  p.state = .tryingFirst ∧ (∃ f, p.order = [f, w]) ∧ s.rstate (p.region w) = some .header

theorem waiting_iff {s : State} {p : Pair} {w : Slot} : s.waiting p = some w ↔ s.Waits p w := by
  constructor
  · intro h
    have hheader := waiting_header h
    unfold State.waiting at h
    split at h
    · rename_i f w' hstate horder
      split at h
      · obtain rfl := Option.some.inj h
        exact ⟨hstate, ⟨f, horder⟩, hheader⟩
      · cases h
    · cases h
  · rintro ⟨hstate, ⟨f, horder⟩, hheader⟩
    simp [State.waiting, hstate, horder, hheader]

theorem waiting_congr {s t : State} (h : ∀ k, t.rstate k = s.rstate k) (p : Pair) : t.waiting p = s.waiting p := by
  refine Option.ext fun w => ?_
  rw [waiting_iff, waiting_iff, State.Waits, State.Waits, h]

/-- A selection is one of the pair's slots. -/
theorem slot_of_selected {p : Pair} {i : Nat} (h : p.selected = some i) : ∃ slot, p.region slot = i := by
  obtain ⟨slot, -, hslot⟩ := Option.map_eq_some_iff.mp h
  exact ⟨slot, hslot⟩

theorem unqueued_slots {s : State} {p : Pair} (h : ∀ o ∈ s.queue, p.home ∉ s.ownerRegions o ∧ p.alternate ∉ s.ownerRegions o) :
    ∀ slot, s.Unqueued (p.region slot)
  | .home => fun o ho => (h o ho).1
  | .alternate => fun o ho => (h o ho).2

/-! ## The last byte of a payload -/

/-- The state that the last payload byte of region `i` leaves before the context is released or kept. -/
def State.handedOn (s : State) (c : Fin 4) (i : Nat) (z : Ctx) (y : Runtime) (b : Byte) (seen : Bool) (entry : SigEntry) : State :=
  (s.fed c i z y b seen).signed i entry

/-- From `s` to `t` the digest of region `i`, of record `y`, is completed: the region is SIGNING, the pairs stand, and the entry is handed
on (R41, R71, R73). -/
structure Completed (s : State) (i : Nat) (y : Runtime) (seen : Bool) (entry : SigEntry) (t : State) : Prop where
  rt : t.rt i = some { y with state := .signing, progress := y.progress + 1, observed := y.observed || seen, context := none }
  pairs : t.pairs = s.pairs
  handed : Handed s entry t

/-- From `s` to `u` an entry joins the list; the queue, the pairs, the unit, the keys and the check time stay. -/
structure Joins (s : State) (entry : SigEntry) (u : State) : Prop where
  queue : u.queue = s.queue
  pairs : u.pairs = s.pairs
  sigList : u.sigList = s.sigList ++ [entry]
  sigUnit : u.sigUnit = s.sigUnit
  keys : u.keys = s.keys
  synth : u.synth = s.synth

theorem handedOn_joins (s : State) (c : Fin 4) (i : Nat) (z : Ctx) (y : Runtime) (b : Byte) (seen : Bool) (entry : SigEntry) :
    Joins s entry (s.handedOn c i z y b seen entry) := ⟨rfl, rfl, rfl, rfl, rfl, rfl⟩

theorem Joins.setCtx {s u : State} {entry : SigEntry} (h : Joins s entry u) (c : Fin 4) (x : Option Ctx) :
    Joins s entry (u.setCtx c x) := ⟨h.queue, h.pairs, h.sigList, h.sigUnit, h.keys, h.synth⟩

theorem Joins.releaseCtx {s u : State} {entry : SigEntry} (h : Joins s entry u) (c : Fin 4) : Joins s entry (u.releaseCtx c) :=
  ⟨h.queue, h.pairs, h.sigList, h.sigUnit, h.keys, h.synth⟩

theorem Joins.sameWaiting {s u : State} {entry : SigEntry} (h : Joins s entry u) : SameWaiting s u :=
  sameWaiting_of_same h.queue h.pairs

theorem rt_setCtx (s : State) (c : Fin 4) (x : Option Ctx) (k : Nat) : (s.setCtx c x).rt k = s.rt k := rfl

section
variable {s t : State} {c : Fin 4} {i : Nat} {z : Ctx} {y : Runtime} {b : Byte} {seen : Bool} {entry : SigEntry}

theorem handedOn_rt (hy : s.rt i = some y) : (s.handedOn c i z y b seen entry).rt i
    = some { y with state := .signing, progress := y.progress + 1, observed := y.observed || seen, context := none } :=
  rt_modRt_self (s := s.fed c i z y b seen) Runtime.sign (rt_fed c z b seen hy)

theorem handedOn_rt_of_ne {k : Nat} (h : k ≠ i) : (s.handedOn c i z y b seen entry).rt k = s.rt k :=
  (rt_modRt_of_ne (s := s.fed c i z y b seen) Runtime.sign h).trans (rt_fed_of_ne c z y b seen h)

/-- An event in which the region goes to SIGNING and its entry joins the list ends with the digest completed. -/
theorem completed_of_ends {u : State} (hrt : u.rt i
      = some { y with state := .signing, progress := y.progress + 1, observed := y.observed || seen, context := none })
    (hu : Joins s entry u) (hqueue : s.Unqueued i) (hwork : s.VerifierAtWork) (h : Ends u t) : Completed s i y seen entry t :=
  ⟨(h.rt i (hu.sameWaiting.unqueued hqueue)).trans hrt, h.pairs.trans hu.pairs,
    h.handed hwork hu.sigList hu.sigUnit hu.keys hu.synth⟩

variable (hy : s.rt i = some y) (hqueue : s.Unqueued i) (hwork : s.VerifierAtWork)
include hy hqueue hwork

/-- The context is kept, as it is left for the candidate that waits (R71). -/
theorem completed_of_keep {x : Ctx} (h : Ends ((s.handedOn c i z y b seen entry).setCtx c (some x)) t) :
    Completed s i y seen entry t ∧ t.ctx c = some x := by
  refine ⟨completed_of_ends ?_ ((handedOn_joins ..).setCtx c _) hqueue hwork h, h.held c x (ctx_setCtx_self _ c _)⟩
  rw [rt_setCtx, handedOn_rt hy]

/-- The context is released (R72); who holds it next has waited in the queue. -/
theorem completed_of_release (h : Ends ((s.handedOn c i z y b seen entry).releaseCtx c) t) :
    Completed s i y seen entry t ∧ ∀ o, o ∉ s.queue → ∀ z', t.ctx c = some z' → z'.owner ≠ o := by
  have hjoins := (handedOn_joins s c i z y b seen entry).releaseCtx c
  refine ⟨completed_of_ends ?_ hjoins hqueue hwork h, ?_⟩
  · rw [rt_releaseCtx, handedOn_rt hy]
    rfl
  · rintro o ho z' hz' rfl
    obtain hheld | hqueued := h.granted c z' hz'
    · rw [ctx_releaseCtx_self] at hheld
      cases hheld
    · rw [hjoins.queue] at hqueued
      exact ho hqueued

end

section LastByte
variable {s t : State} {c : Fin 4} {i : Nat} {z : Ctx} {y : Runtime} {m : Recorded} {b : Byte} {seen : Bool} {message bs : List Byte}
  (hz : s.ctx c = some z) (hy : s.rt i = some y) (hm : y.recorded = some m) (hlast : y.progress + 1 = m.signedLength)
  (hdigest : z.digest = some (Digest.begin.absorbAll message)) (hmanifest : z.manifest i = bs) (hwork : s.VerifierAtWork)
  (hends : Ends (s.absorb c i b seen) t)

include hz hy hm hlast in
theorem absorb_last : s.absorb c i b seen = (s.fed c i z y b seen).completeDigest c i := by
  rw [absorb_eq b seen hz hy, if_pos ((lastByte_iff hy).mpr (by simpa [hm] using hlast))]

include hm hdigest hmanifest in
theorem fed_signed : (s.fed c i z y b seen).signed i ((s.fedCtx i z y b).entryOf i (y.fed seen))
    = s.handedOn c i z y b seen (signatureEntry i (message ++ [b]) bs m y.runTag) := by
  rw [entryOf_fedCtx b seen hdigest hmanifest hm]
  rfl

include hz hy hm hlast hdigest hmanifest hwork hends

/-- The last byte of a region that owns its context: the digest is handed on and the context released (R71, R72). -/
theorem own_completes (howner : z.owner = .region i) (hqueue : s.Unqueued i) :
    Completed s i y seen (signatureEntry i (message ++ [b]) bs m y.runTag) t
      ∧ ∀ z', t.ctx c = some z' → z'.owner ≠ .region i := by
  rw [absorb_last hz hy hm hlast, completeDigest_of_own (ctx_fed s c i z y b seen) (rt_fed c z b seen hy) howner,
    fed_signed hm hdigest hmanifest] at hends
  obtain ⟨hdone, hctx⟩ := completed_of_release hy hqueue hwork hends
  exact ⟨hdone, hctx _ fun ho => hqueue _ ho (List.mem_singleton_self i)⟩

/-- The last byte of a pair's candidate: the context is kept, its digest dropped and nothing wanted, while the other candidate waits, and
released when none does (R71, R72). -/
theorem candidate_completes {j : Nat} {p : Pair} (howner : z.owner = .pair j) (hp : s.pair j = some p) (hselected : p.selected = some i)
    (hstate : y.state = .hashing) (hqueue : ∀ slot, s.Unqueued (p.region slot)) :
    Completed s i y seen (signatureEntry i (message ++ [b]) bs m y.runTag) t
      ∧ (∀ w, s.Waits p w →
          t.ctx c = some { z with digest := none, nextRead := s.base i + 256 + (y.progress + 1), wanted := 0 }
            ∧ t.rt (p.region w) = s.rt (p.region w))
      ∧ ((∀ w, ¬ s.Waits p w) → ∀ z', t.ctx c = some z' → z'.owner ≠ .pair j) := by
  obtain ⟨slot, hslot⟩ := slot_of_selected hselected
  have hunqueued : s.Unqueued i := hslot ▸ hqueue slot
  have hctx := ctx_fed s c i z y b seen
  have hfed := rt_fed c z b seen hy
  have hrstate (k : Nat) : (s.fed c i z y b seen).rstate k = s.rstate k := by
    by_cases hk : k = i
    · subst hk
      simp only [State.rstate, hfed, hy]
      rfl
    · exact congrArg (Option.map Runtime.state) (rt_fed_of_ne c z y b seen hk)
  have hsame := waiting_congr hrstate p
  rw [absorb_last hz hy hm hlast] at hends
  cases hw : s.waiting p with
  | some w =>
    rw [completeDigest_of_waiting hctx hfed howner hp (hsame.trans hw), fed_signed hm hdigest hmanifest] at hends
    obtain ⟨hdone, hkept⟩ := completed_of_keep hy hunqueued hwork hends
    refine ⟨hdone, fun w' hw' => ⟨hkept, ?_⟩, fun hno => absurd (waiting_iff.mp hw) (hno w)⟩
    obtain ⟨-, -, hheader⟩ := hw'
    have hne : p.region w' ≠ i := by
      rintro rfl
      simp [State.rstate, hy, hstate] at hheader
    have hjoins := (handedOn_joins s c i z y b seen (signatureEntry i (message ++ [b]) bs m y.runTag)).setCtx c
    rw [hends.rt _ ((hjoins _).sameWaiting.unqueued (hqueue w')), rt_setCtx, handedOn_rt_of_ne hne]
  | none =>
    rw [completeDigest_of_last hctx hfed howner hp (hsame.trans hw), fed_signed hm hdigest hmanifest] at hends
    obtain ⟨hdone, hreleased⟩ := completed_of_release hy hunqueued hwork hends
    refine ⟨hdone, fun w hwaits => ?_, fun _ => hreleased _ fun ho => ?_⟩
    · simp [waiting_iff.mpr hwaits] at hw
    · exact hqueue slot _ ho (mem_ownerRegions_pair.mpr ⟨p, hp, by cases slot <;> simp [Pair.region]⟩)

end LastByte

end Sys2Proof.Machine
end

section
/-! PROOFS. A byte of a burst (R61, R63, R66): one that ends nothing is stored or absorbed and the burst goes on; the last of a payload
completes its digest (R71). -/

namespace Sys2Proof.Machine

/-! ## The way of a byte -/

/-- A byte that ends nothing is taken, and the burst goes on or ends with it (R66, R136). -/
theorem exec_burst_more {s u : State} {c : Fin 4} {left : Nat} {b : Byte} (hholder : s.fp.holder = .own (.burst c left))
    (hmore : s.completes c = false) (htake : s.takeByte c b = u) (hfp : u.fp = s.fp) :
    exec (.burstByteReceived b) s = .next
      (if left ≤ 1 then ({ u with fp := { s.fp with holder := .free, select := false } }).arbitrate
        else { u with fp := { s.fp with holder := .own (.burst c (left - 1)) } }) := by
  have hburst : u.burstFor c = true := by simp [State.burstFor, hfp, hholder]
  have hexec : exec (.burstByteReceived b) s = .next (u.countBurst c left).arbitrate := by
    simp [exec, execBurstByteReceived, hholder, htake, hmore]
  rw [hexec, State.countBurst, if_pos hburst]
  split
  · rw [State.freeFlash, hfp]
    rfl
  · rw [hfp, arbitrate_of_held _ (by simp)]

/-- A byte that completes something is taken, and the event is closed (R66). -/
theorem exec_burst_completes {s : State} {c : Fin 4} {left : Nat} {b : Byte} (hholder : s.fp.holder = .own (.burst c left))
    (hlast : s.completes c = true) : ∃ t, exec (.burstByteReceived b) s = .next t ∧ Ends (s.takeByte c b) t := by
  refine ⟨((s.takeByte c b).countBurst c left).settle.arbitrate, ?_, (settle_ends _).arbitrate.of_countBurst⟩
  simp [exec, execBurstByteReceived, hholder, hlast]

theorem gathering_of_short {z : Ctx} {before behind : List Manifest} {i : Nat} {bs : List Byte}
    (hstore : z.store = before ++ ⟨i, bs⟩ :: behind) (hgathers : Gathers before i behind) (hlen : bs.length < 80) :
    z.gathering = some ⟨i, bs⟩ := by
  rw [Ctx.gathering, hstore, find_short hgathers.whole]
  simp [hlen]

theorem gathers_eq {z : Ctx} {before behind : List Manifest} {i : Nat} {bs : List Byte} (b : Byte)
    (hstore : z.store = before ++ ⟨i, bs⟩ :: behind) (hgathers : Gathers before i behind) :
    z.gathers i b
      = { z with store := before ++ ⟨i, bs ++ [b]⟩ :: behind, nextRead := z.nextRead + 1, wanted := z.wanted - 1 } := by
  rw [Ctx.gathers, hstore, map_append_byte hgathers]

/-- Settles O37: by the phase of the context, in which the byte joins the manifest or the digest, and the burst's count. -/
theorem aBurstByteGoesToItsContext : Obligations.ABurstByteGoesToItsContext := by
  intro b s c left z hholder hz after
  refine ⟨?_, ?_⟩
  · intro before i bs behind hphase hstore hlen hbefore hbehind
    have hgathers : Gathers before i behind := ⟨fun m hm => (hbefore m hm).1, fun m hm => (hbefore m hm).2, hbehind⟩
    have hm := gathering_of_short hstore hgathers (by omega)
    have hmore : s.completes c = false := by
      rw [Bool.eq_false_iff, ne_eq, completes_header hz hphase hm]
      exact hlen.ne
    have htake : s.takeByte c b = s.setCtx c (some (z.gathers i b)) :=
      (takeByte_header b hz hphase).trans (gather_of_more b hz hm hlen.ne)
    rw [gathers_eq b hstore hgathers] at htake
    exact exec_burst_more hholder hmore htake rfl
  · intro i r y m d hphase hd hr hy hstate hc hm hlen howner
    have hi := hashing_of_owner hz hphase hy hstate hc howner
    have hlast : s.lastByte i = false := by
      rw [Bool.eq_false_iff, ne_eq, lastByte_iff hy, hm]
      exact hlen.ne
    have hmore := (completes_payload hz hphase hi).trans hlast
    have htake : s.takeByte c b = s.fed c i z y b false := by
      rw [takeByte_payload b hz hphase hi, absorb_eq b false hz hy, hlast, if_neg Bool.false_ne_true]
    rw [fed_eq b false hy hd hr hm, Bool.or_false] at htake
    exact exec_burst_more hholder hmore htake rfl

/-- The last byte of a payload is absorbed, and the event is closed (R66, R71). -/
theorem exec_last_payload {s : State} {c : Fin 4} {left : Nat} {b : Byte} {z : Ctx} {i : Nat} {y : Runtime} {m : Recorded}
    (hholder : s.fp.holder = .own (.burst c left)) (hz : s.ctx c = some z) (hphase : z.phase = .payload) (hi : s.hashing c = some i)
    (hy : s.rt i = some y) (hm : y.recorded = some m) (hlast : y.progress + 1 = m.signedLength) :
    ∃ t, exec (.burstByteReceived b) s = .next t ∧ Ends (s.absorb c i b false) t := by
  have hbyte : s.lastByte i = true := (lastByte_iff hy).mpr (by simpa [hm] using hlast)
  rw [← takeByte_payload b hz hphase hi]
  exact exec_burst_completes hholder ((completes_payload hz hphase hi).trans hbyte)

/-- Settles O40: a region's own attempt and a pair's candidate, by what the last byte of each leaves (`own_completes`,
`candidate_completes`). -/
theorem theLastPayloadByteCompletesTheDigest : Obligations.TheLastPayloadByteCompletesTheDigest := by
  refine ⟨?_, ?_⟩
  · intro b s c left z i bs y m message hholder hz hphase howner hstore hdigest hy hstate hc hm hlast _ hqueue hwork entry
    have hi := hashing_of_owner hz hphase hy hstate hc (.inl howner)
    obtain ⟨t, hexec, hends⟩ := exec_last_payload (b := b) hholder hz hphase hi hy hm hlast
    have hmanifest : z.manifest i = bs := manifest_of_store (before := []) hstore nofun
    obtain ⟨⟨hrt, hpairs, hbusy, hfree⟩, hctx⟩ := own_completes hz hy hm hlast hdigest hmanifest hwork hends howner hqueue
    rw [Bool.or_false] at hrt
    exact ⟨t, hexec, hrt, pair_congr hpairs, hctx, hbusy, hfree⟩
  · intro b s c left z j i p before behind bs r y m message hholder hz hphase howner hp hselected hstore hbefore hdigest hr hy hstate hc
      hm hlast hqueue hwork entry waits
    have hi := hashing_of_owner hz hphase hy hstate hc (.inr ⟨j, p, howner, hp, hselected⟩)
    obtain ⟨t, hexec, hends⟩ := exec_last_payload (b := b) hholder hz hphase hi hy hm hlast
    obtain ⟨⟨hrt, hpairs, hbusy, hfree⟩, hkept, hreleased⟩ := candidate_completes hz hy hm hlast hdigest
      (manifest_of_store hstore hbefore) hwork hends howner hp hselected hstate (unqueued_slots hqueue)
    rw [Bool.or_false] at hrt
    rw [base_of_region hr] at hkept
    exact ⟨t, hexec, hrt, (pair_congr hpairs j).trans hp, hbusy, hfree, hkept, hreleased⟩

end Sys2Proof.Machine
end

section
/-! PROOFS. The result of a signature check that is no candidate's (R42, R74, R76): applied to its region, or discarded. -/

namespace Sys2Proof.Machine

/-- A region whose pair's procedure is over, or that is of no pair, is no candidate. -/
theorem candidateOf_of_over {s : State} {i : Nat}
    (h : ∀ j p, s.pairOf i = some j → s.pair j = some p → p.state = .selected ∨ p.state = .failed) : s.candidateOf i = none := by
  by_contra hsome
  obtain ⟨j, hj⟩ := Option.ne_none_iff_exists'.mp hsome
  obtain ⟨hof, htrying⟩ := Option.filter_eq_some_iff.mp hj
  obtain ⟨p, hp, htry⟩ := (Option.any_eq_true _ _).mp htrying
  obtain hover | hover := h j p hof hp <;> simp [Pair.trying, hover] at htry

/-- The verdict of a check on the record of its region (R42). -/
def Runtime.judged (passed : Bool) (t : Runtime) : Runtime := if passed then t.verify else t.reject .signature

theorem applyResult_of_over {s : State} {g : SigEntry} (passed : Bool) (htag : g.runTag = s.runNumber)
    (hsigning : s.rstate g.region = some .signing) (hcandidate : s.candidateOf g.region = none) :
    s.applyResult g passed = s.modRt g.region (Runtime.judged passed) := by
  simp only [State.applyResult, htag, hsigning, hcandidate, and_self, if_true]
  rfl

theorem applyResult_of_stale {s : State} {g : SigEntry} (passed : Bool)
    (h : g.runTag ≠ s.runNumber ∨ s.rstate g.region ≠ some .signing) : s.applyResult g passed = s :=
  if_neg (by tauto)

/-- A check that ends is reported, if it is not withdrawn, and the event is closed (R76). -/
theorem exec_signatureCheckComplete {s : State} {g : SigEntry} {withdrawn : Bool} {key : List Byte} {rem : Nat}
    (hunit : s.sigUnit = .checking g withdrawn key rem) :
    exec .signatureCheckComplete s = .next
      (if withdrawn then s.checked rem
        else (s.checked rem).applyResult g (checkSignature key g.digest g.signature)).settle.arbitrate := by
  simp only [exec, execSignatureCheckComplete, hunit]
  rfl

/-- An event that starts with no grant due and changes no record closes without changing one. -/
theorem settle_runtime_of_noGrantDue {s : State} (h : s.NoGrantDue) : s.settle.runtime = s.runtime := by
  simp [State.settle, grants_of_noGrantDue h]

/-- Settles O42: an applied result is its verdict on the region's record, after which the unit takes the oldest entry; a discarded one
leaves the records, no grant being due in a verifier at work. -/
theorem aCheckResultIsAppliedOrDiscarded : Obligations.ACheckResultIsAppliedOrDiscarded := by
  refine ⟨?_, ?_⟩
  · intro s g key rem y hunit htag hy hstate hover hqueue
    have happly : (s.checked rem).applyResult g (checkSignature key g.digest g.signature) = _ :=
      applyResult_of_over (s := s.checked rem) _ htag (rstate_eq_some_iff.mpr ⟨y, hy, hstate⟩) (candidateOf_of_over hover)
    have hexec := exec_signatureCheckComplete hunit
    rw [if_neg Bool.false_ne_true, happly] at hexec
    have hends := (settle_ends ((s.checked rem).modRt g.region (Runtime.judged (checkSignature key g.digest g.signature)))).arbitrate
    have hrt := (hends.rt g.region ((checked_modRt_sameWaiting s rem g.region _).unqueued hqueue)).trans (rt_modRt_self _ hy)
    refine ⟨_, hexec, hends.pair, fun hpass => ?_, fun hfail => ?_, fun hnil => ?_, fun g' rest hcons => ?_⟩
    · rw [hrt, hpass]
      rfl
    · rw [hrt, hfail]
      rfl
    · rw [hends.sigUnit, hends.sigList, takeCheck_of_nil (by exact hnil)]
      exact ⟨rfl, hnil⟩
    · rw [hends.sigUnit, hends.sigList, takeCheck_of_cons (by rfl) (by exact hcons)]
      exact ⟨rfl, rfl⟩
  · rintro s g withdrawn key rem hunit ⟨hgrant, -⟩ hdiscard
    have hleft : (if withdrawn then s.checked rem
        else (s.checked rem).applyResult g (checkSignature key g.digest g.signature)) = s.checked rem := by
      obtain rfl | hstale := hdiscard
      · rfl
      · rw [applyResult_of_stale (s := s.checked rem) _ hstale, ite_self]
    refine ⟨_, exec_signatureCheckComplete hunit, ?_, ?_⟩ <;> rw [hleft]
    · rw [State.arbitrate_runtime, settle_runtime_of_noGrantDue (s := s.checked rem) hgrant]
      rfl
    · rw [State.arbitrate_pairs, State.settle_pairs]
      rfl

end Sys2Proof.Machine
end

section
/-! PROOFS. Observation (R69 to R71): a byte of a READ that is shown, at exactly the next payload position of a region under observation,
enters its digest, and the last of them completes it as one of a burst would. -/

namespace Sys2Proof.Machine

/-- The state in which the controller has sampled a byte of READ `x` as the flash drove it, before the byte is offered (R81). -/
def State.shown (s : State) (x : Tx) (b : Byte) : State := (s.setTx (some { x with k := x.k + 1 })).answer b .flash

theorem shown_eq {s : State} (x : Tx) (b : Byte) (hmode : s.up.mode = .relaying) :
    s.shown x b = { s with up := ⟨s.up.select, .relaying, some { x with k := x.k + 1 }, some ⟨b, .flash⟩⟩ } := by
  rw [← hmode]
  rfl

/-- A READ in its data phase, relayed, whose next byte comes from physical address `a`, as it is wanted (R12 to R15). -/
structure ReadsAt (s : State) (x : Tx) (a : Nat) : Prop where
  mode : s.up.mode = .relaying
  tx : s.up.tx = some x
  phase : x.phase = .data
  handling : x.handling = .relay
  address : ∃ e ws addr, x.entry = some e ∧ e.cls = .read ∧ x.captured = some ws ∧ x.address = some addr
    ∧ wanted ws s.flashSize (s.logical e.addrBytes addr) x.k = a ∧ delivered ws s.flashSize (s.logical e.addrBytes addr) x.k = a

/-- A byte that may be shown is sampled by the controller and offered for absorption (R69, R81). -/
theorem exec_shown {s : State} {x : Tx} {a : Nat} (b : Byte) (h : ReadsAt s x a) (hshow : s.Showable a) :
    exec (.upstreamDataByte b) s = .next ((s.shown x b).offer a b) := by
  obtain ⟨hmode, htx, hphase, hrelay, e, ws, addr, hentry, hread, hws, haddr, hwanted, hdelivered⟩ := h
  have hflash : s.streamByte ws (s.logical e.addrBytes addr) x.k = .flash :=
    (streamByte_flash_iff ..).mpr ⟨hwanted.trans hdelivered.symm, hwanted.symm ▸ hshow⟩
  have hcaptured : x.captured.getD [] = ws := by rw [hws]; rfl
  have haddress : x.address.getD 0 = addr := by rw [haddr]; rfl
  rw [exec_readByte hmode htx hphase hentry hread hrelay]
  unfold State.readByte
  dsimp only
  rw [hcaptured, haddress, hflash, hwanted]
  rfl

/-- A region under observation that is HASHING in context `c`, whose next payload byte lies at physical address `a`, the flash ready
(R69). -/
structure Observes (s : State) (c : Fin 4) (i : Nat) (r : Region) (y : Runtime) (a : Nat) : Prop where
  region : s.region i = some r
  record : s.rt i = some y
  state : y.state = .hashing
  context : y.context = some c
  hashing : s.hashing c = some i
  gate : s.GateIs i r .observe
  awake : s.fp.shadow.power = .awake
  idle : s.fp.shadow.busy = .idle
  at_ : s.regionAt a = some i
  next : a = r.base + 256 + y.progress

section
variable {s : State} {c : Fin 4} {i : Nat} {r : Region} {y : Runtime} {a : Nat} (h : Observes s c i r y a)
include h

/-- A byte there may be shown: the region is under observation and neither REJECTED nor STALE (R92). -/
theorem Observes.showable : s.Showable a :=
  .inr ⟨i, r, h.at_, h.region, .inr ⟨y, h.record, .inr ⟨h.gate, by simp [h.state], by simp [h.state], by simp [h.state]⟩⟩⟩

theorem Observes.observer : s.observer a = some (c, i) := by
  have hcond : s.effectiveGate i r = .observe ∧ s.hashing c = some i ∧ s.fp.shadow.ready ∧ a = r.base + 256 + y.progress :=
    ⟨(effectiveGate_iff ..).mpr h.gate, h.hashing, by simp [Shadow.ready, h.awake, h.idle], h.next⟩
  simp only [State.observer, h.at_, h.region, h.record, h.context, if_pos hcond]

/-- The byte is absorbed; with the last one the event is closed (R69, R71). -/
theorem Observes.offer (b : Byte) :
    s.offer a b = if s.lastByte i then (s.absorb c i b true).settle else s.absorb c i b true := by
  simp only [State.offer, h.observer]

end

/-- Sampling a byte leaves the verifier's records. -/
theorem Observes.shown {s : State} {c : Fin 4} {i : Nat} {r : Region} {y : Runtime} {a : Nat} (x : Tx) (b : Byte)
    (h : Observes s c i r y a) : Observes (s.shown x b) c i r y a := by
  obtain ⟨hregion, hrecord, hstate, hcontext, hhashing, hgate, hawake, hidle, hat, hnext⟩ := h
  exact ⟨hregion, hrecord, hstate, hcontext, hhashing, hgate, hawake, hidle, hat, hnext⟩

section
variable {s : State} {x : Tx} {c : Fin 4} {i : Nat} {r : Region} {y : Runtime} {z : Ctx} {a : Nat} {m : Recorded}
  (hreads : ReadsAt s x a) (hobserves : Observes s c i r y a) (hm : y.recorded = some m)
include hreads hobserves hm

/-- An observed byte that is not the last only enters the digest (R69, R70). -/
theorem exec_observed_more (b : Byte) (hz : s.ctx c = some z) (hmore : y.progress + 1 < m.signedLength) :
    exec (.upstreamDataByte b) s = .next ((s.shown x b).fed c i z y b true) := by
  have hshown := hobserves.shown x b
  have hlast : (s.shown x b).lastByte i = false := by
    rw [Bool.eq_false_iff, ne_eq, lastByte_iff hshown.record, hm]
    exact hmore.ne
  rw [exec_shown b hreads hobserves.showable, hshown.offer, absorb_eq (s := s.shown x b) b true hz hshown.record, hlast,
    if_neg Bool.false_ne_true, if_neg Bool.false_ne_true]

/-- The last byte, observed, is absorbed and the event is closed, the upstream port having gone on (R71). -/
theorem exec_observed_last (b : Byte) (hlast : y.progress + 1 = m.signedLength) :
    ∃ t, exec (.upstreamDataByte b) s = .next t ∧ Ends ((s.shown x b).absorb c i b true) t
      ∧ t.up = ⟨s.up.select, .relaying, some { x with k := x.k + 1 }, some ⟨b, .flash⟩⟩ := by
  have hshown := hobserves.shown x b
  have hbyte : (s.shown x b).lastByte i = true := (lastByte_iff hshown.record).mpr (by simpa [hm] using hlast)
  refine ⟨_, ?_, settle_ends _, ?_⟩
  · rw [exec_shown b hreads hobserves.showable, hshown.offer, if_pos hbyte]
  · rw [State.settle_up, absorb_up, shown_eq x b hreads.mode]

end

/-- Settles O23: the byte is offered in the state in which the controller has sampled it; one that is not the last enters the digest
(`exec_observed_more`), the last completes it as the last of a burst does (`own_completes`, `candidate_completes`). -/
theorem aShownByteIsObservedAtItsExactPosition : Obligations.AShownByteIsObservedAtItsExactPosition := by
  refine ⟨?_, ?_, ?_⟩
  · intro b s x e ws addr i r y c z d m hmode htx hphase hentry hread hrelay hws haddr hr hy hstate hc hm hmore hz hpayload hd howner
      hgate hawake hidle ⟨hwanted, hat, hnext⟩
    have hreads : ReadsAt s x _ := ⟨hmode, htx, hphase, hrelay, e, ws, addr, hentry, hread, hws, haddr, rfl, hwanted.symm⟩
    have hi := hashing_of_owner hz hpayload hy hstate hc howner
    rw [exec_observed_more hreads ⟨hr, hy, hstate, hc, hi, hgate, hawake, hidle, hat, hnext⟩ hm b hz hmore,
      fed_eq (s := s.shown x b) b true hy hd hr hm, Bool.or_true, shown_eq x b hmode]
  · intro b s x e ws addr i r y c z bs message m hmode htx hphase hentry hread hrelay hws haddr hr hy hstate hc hm hlast hz hpayload
      howner hstore hdigest _ hgate hawake hidle hqueue hwork ⟨hwanted, hat, hnext⟩ entry
    have hreads : ReadsAt s x _ := ⟨hmode, htx, hphase, hrelay, e, ws, addr, hentry, hread, hws, haddr, rfl, hwanted.symm⟩
    have hi := hashing_of_owner hz hpayload hy hstate hc (.inl howner)
    obtain ⟨t, hexec, hends, hup⟩ :=
      exec_observed_last hreads ⟨hr, hy, hstate, hc, hi, hgate, hawake, hidle, hat, hnext⟩ hm b hlast
    obtain ⟨⟨hrt, hpairs, hbusy, hfree⟩, -⟩ := own_completes (s := s.shown x b) hz hy hm hlast hdigest
      (manifest_of_store (before := []) hstore nofun) hwork hends howner hqueue
    rw [Bool.or_true] at hrt
    exact ⟨t, hexec, hup, hrt, pair_congr hpairs, hbusy, hfree⟩
  · intro b s x e ws addr i r y c z j p before behind bs message m hmode htx hphase hentry hread hrelay hws haddr hr hy hstate hc hm
      hlast hz hpayload howner hp hselected hstore hbefore hdigest hgate hawake hidle hqueue hwork ⟨hwanted, hat, hnext⟩ entry waits
    have hreads : ReadsAt s x _ := ⟨hmode, htx, hphase, hrelay, e, ws, addr, hentry, hread, hws, haddr, rfl, hwanted.symm⟩
    have hi := hashing_of_owner hz hpayload hy hstate hc (.inr ⟨j, p, howner, hp, hselected⟩)
    obtain ⟨t, hexec, hends, hup⟩ :=
      exec_observed_last hreads ⟨hr, hy, hstate, hc, hi, hgate, hawake, hidle, hat, hnext⟩ hm b hlast
    obtain ⟨⟨hrt, hpairs, hbusy, hfree⟩, hkept, hreleased⟩ := candidate_completes (s := s.shown x b) hz hy hm hlast hdigest
      (manifest_of_store hstore hbefore) hwork hends howner hp hselected hstate (unqueued_slots hqueue)
    rw [Bool.or_true] at hrt
    rw [base_of_region (s := s.shown x b) hr] at hkept
    exact ⟨t, hexec, hup, hrt, (pair_congr hpairs j).trans hp, hbusy, hfree, hkept, hreleased⟩

end Sys2Proof.Machine
end

section
/-! PROOFS. What reaches the controller, and what stays in the part, of a data byte of a READ (R16, R85, R89, R92): it is either filled,
whatever the flash drove, or the flash's own byte at an address that may be shown. -/

namespace Sys2Proof.Machine

/-- The state in which a byte of READ `x` has been filled for `cause`: FFh, whatever the flash drove (R85). -/
def State.filled (s : State) (x : Tx) (cause : FillCause) : State :=
  (s.setTx (some { x with k := x.k + 1, causes := x.causes.join cause })).answer 0xFF (.fill cause)

theorem filled_out (s : State) (x : Tx) (cause : FillCause) : (s.filled x cause).up.out = some ⟨0xFF, .fill cause⟩ := rfl

/-- What the controller has sampled stands when the byte is offered for absorption. -/
theorem offer_shown_out (s : State) (x : Tx) (b : Byte) (a : Nat) : ((s.shown x b).offer a b).up.out = some ⟨b, .flash⟩ := by
  rw [offer_up]
  rfl

/-- A data byte of a relayed transaction is taken by its class and handling. -/
theorem exec_dataByte {s : State} {x : Tx} {e : ClassEntry} (b : Byte) (hmode : s.up.mode = .relaying) (htx : s.up.tx = some x)
    (hphase : x.phase = .data) (hentry : x.entry = some e) : exec (.upstreamDataByte b) s = .next (s.dataByte x e b) := by
  show execUpstreamDataByte b s = _
  simp [execUpstreamDataByte, hmode, htx, hphase, hentry]

section

variable {s : State} {x : Tx} {e : ClassEntry}

/-- A truncated READ samples nothing. -/
theorem dataByte_truncated (b : Byte) (hread : e.cls = .read) (hcut : x.handling = .truncated) :
    s.dataByte x e b = s.setTx (some { x with k := x.k + 1 }) := by
  simp [State.dataByte, hread, hcut]

/-- A READ that the flash has no transaction for is filled for RANGE (R14). -/
theorem dataByte_noFlash (b : Byte) (hread : e.cls = .read) (habsent : x.handling = .noFlash) :
    s.dataByte x e b = s.filled x .range := by
  simp [State.dataByte, hread, habsent, State.filled]

/-- Any other READ is decided byte by byte (R16). -/
theorem dataByte_decided (b : Byte) (hread : e.cls = .read) (hwhole : x.handling ≠ .truncated) (hflash : x.handling ≠ .noFlash) :
    s.dataByte x e b = s.readByte x e b := by
  cases hhandling : x.handling with
  | truncated => exact absurd hhandling hwhole
  | noFlash => exact absurd hhandling hflash
  | relay | serviceWait | consumed => simp [State.dataByte, hread, hhandling]

variable {ws : List Window} {addr : BitVec 32} (hws : x.captured = some ws) (haddr : x.address = some addr)
include hws haddr

/-- The decided byte, shown: sampled as driven and offered for absorption (R81, R89). -/
theorem readByte_of_flash (b : Byte) (hdecide : s.streamByte ws (s.logical e.addrBytes addr) x.k = .flash) :
    s.readByte x e b = (s.shown x b).offer (wanted ws s.flashSize (s.logical e.addrBytes addr) x.k) b := by
  unfold State.readByte
  simp only [hws, haddr, Option.getD_some, hdecide]
  simp only [State.shown, hws, haddr]

/-- The decided byte, filled: the byte driven is not looked at (R85). -/
theorem readByte_of_fill (b : Byte) {cause : FillCause}
    (hdecide : s.streamByte ws (s.logical e.addrBytes addr) x.k = .fill cause) : s.readByte x e b = s.filled x cause := by
  unfold State.readByte
  simp only [hws, haddr, Option.getD_some, hdecide]
  simp only [State.filled, hws, haddr]

/-- A data byte of a READ that is not truncated: filled for a cause that does not depend on the byte driven, or shown, and then at an
aligned address that may be shown (R15, R16, R81). -/
theorem dataByte_filled_or_shown (hread : e.cls = .read) (hwhole : x.handling ≠ .truncated) :
    let p := wanted ws s.flashSize (s.logical e.addrBytes addr) x.k
    (∃ cause, ∀ b, s.dataByte x e b = s.filled x cause) ∨
      x.handling ≠ .noFlash ∧ p = delivered ws s.flashSize (s.logical e.addrBytes addr) x.k ∧ s.Showable p
        ∧ ∀ b, s.dataByte x e b = (s.shown x b).offer p b := by
  intro p
  by_cases hflash : x.handling = .noFlash
  · exact .inl ⟨.range, fun b => dataByte_noFlash b hread hflash⟩
  · have hdata (b : Byte) : s.dataByte x e b = s.readByte x e b := dataByte_decided b hread hwhole hflash
    cases hdecide : s.streamByte ws (s.logical e.addrBytes addr) x.k with
    | fill cause => exact .inl ⟨cause, fun b => (hdata b).trans (readByte_of_fill hws haddr b hdecide)⟩
    | flash =>
      obtain ⟨haligned, hshow⟩ := (streamByte_flash_iff ..).mp hdecide
      exact .inr ⟨hflash, haligned, hshow, fun b => (hdata b).trans (readByte_of_flash hws haddr b hdecide)⟩

end

/-- Settles O21: a filled byte is not from the flash, and a shown one is the byte driven, at an aligned address that may be shown. -/
theorem onlyShowableBytesAreDelivered : Obligations.OnlyShowableBytesAreDelivered := by
  intro b v s t x e ws addr hmode htx hphase hentry hread hwhole hws haddr hexec hout
  rw [exec_dataByte b hmode htx hphase hentry] at hexec
  obtain rfl : s.dataByte x e b = t := Host.Outcome.next.inj hexec
  obtain ⟨cause, hfilled⟩ | ⟨-, haligned, hshow, hshown⟩ := dataByte_filled_or_shown (s := s) hws haddr hread hwhole
  · rw [hfilled, filled_out] at hout
    cases hout
  · rw [hshown, offer_shown_out] at hout
    cases hout
    exact ⟨rfl, haligned, hshow⟩

/-- Settles O22: a byte that is not shown leaves one state, whether the READ samples nothing or the byte is filled. -/
theorem aFilledByteRevealsNothing : Obligations.AFilledByteRevealsNothing := by
  intro b b' s x e ws addr hmode htx hphase hentry hread hws haddr hhidden
  rw [exec_dataByte b hmode htx hphase hentry, exec_dataByte b' hmode htx hphase hentry]
  by_cases hcut : x.handling = .truncated
  · rw [dataByte_truncated b hread hcut, dataByte_truncated b' hread hcut]
  · obtain ⟨cause, hfilled⟩ | ⟨hflash, haligned, hshow, -⟩ := dataByte_filled_or_shown (s := s) hws haddr hread hcut
    · rw [hfilled b, hfilled b']
    · obtain habsent | hmisaligned | hunshowable := hhidden
      · exact absurd habsent hflash
      · exact absurd haligned hmisaligned
      · exact absurd hshow hunshowable

end Sys2Proof.Machine
end

section
/-! PROOFS. What the operations of the verifier leave of the two ports: the upstream port, the permit state, the load, the provisioning and
the flash shadow stand, and the flash is at most freed of a burst (R68). -/

namespace Sys2Proof.Machine

/-- The records that an operation of the verifier leaves to the ports and to their permit state. -/
def State.surface (s : State) : Upstream × PermitState × Load × Bool × Provisioning × Shadow :=
  (s.up, s.permit, s.load, s.resetN, s.prov, s.fp.shadow)

/-- The flash is held neither by the relay nor by the bootstrap read: it is FREE or does an instruction that the arbiter issues. -/
def Holder.arbitrated (h : Holder) : Prop := h ≠ .relay ∧ h ≠ .own .bootstrap

/-- From `s` to `t` the surface stands, and the flash is held as before or freed of a burst. -/
structure LeavesPorts (s t : State) : Prop where
  surface : t.surface = s.surface
  holder : t.fp.holder = s.fp.holder ∨ (s.fp.holder.arbitrated ∧ t.fp.holder = .free)

theorem LeavesPorts.of_same {s t : State} (h : t.surface = s.surface) (hfp : t.fp = s.fp) : LeavesPorts s t :=
  ⟨h, .inl (congrArg FlashPort.holder hfp)⟩

theorem LeavesPorts.refl (s : State) : LeavesPorts s s := .of_same rfl rfl

theorem LeavesPorts.trans {s t u : State} (h : LeavesPorts s t) (h' : LeavesPorts t u) : LeavesPorts s u := by
  refine ⟨h'.surface.trans h.surface, ?_⟩
  obtain ht | ⟨hs, ht⟩ := h.holder
  · simpa only [ht] using h'.holder
  · refine .inr ⟨hs, ?_⟩
    obtain hu | ⟨-, hu⟩ := h'.holder
    · exact hu.trans ht
    · exact hu

/-- A fold of operations that each leave the ports does. -/
theorem foldl_leavesPorts {α : Type} {f : State → α → State} (h : ∀ s a, LeavesPorts s (f s a)) (l : List α) (s : State) :
    LeavesPorts s (l.foldl f s) := by
  induction l generalizing s with
  | nil => exact .refl s
  | cons a l ih => exact (h s a).trans (ih (f s a))

theorem modRt_leavesPorts (s : State) (i : Nat) (f : Runtime → Runtime) : LeavesPorts s (s.modRt i f) := .of_same rfl rfl

theorem modPair_leavesPorts (s : State) (j : Nat) (f : Pair → Pair) : LeavesPorts s (s.modPair j f) := .of_same rfl rfl

theorem setCtx_leavesPorts (s : State) (c : Fin 4) (x : Option Ctx) : LeavesPorts s (s.setCtx c x) := .of_same rfl rfl

theorem withdraw_leavesPorts (s : State) (i : Nat) : LeavesPorts s (s.withdraw i) := .of_same rfl rfl

/-! ## Contexts -/

theorem burstFor_holder {s : State} {c : Fin 4} (h : s.burstFor c = true) : ∃ left, s.fp.holder = .own (.burst c left) := by
  unfold State.burstFor at h
  split at h
  · rename_i c' left hholder
    exact ⟨left, by rw [hholder, eq_of_beq h]⟩
  · cases h

theorem burst_arbitrated (c : Fin 4) (left : Nat) : (Holder.own (.burst c left)).arbitrated := ⟨by simp, by simp⟩

/-- A release frees the flash of a burst for the context, and of nothing else (R68). -/
theorem releaseCtx_leavesPorts (s : State) (c : Fin 4) : LeavesPorts s (s.releaseCtx c) := by
  cases h : s.burstFor c with
  | false => exact .of_same (by simp [State.surface, h]) (by simp [h])
  | true =>
    obtain ⟨left, hholder⟩ := burstFor_holder h
    refine ⟨by simp [State.surface, h, FlashPort.toFree], .inr ⟨hholder ▸ burst_arbitrated c left, ?_⟩⟩
    simp [h, FlashPort.toFree]

theorem releaseOwner_leavesPorts (s : State) (o : Owner) : LeavesPorts s (s.releaseOwner o) := by
  unfold State.releaseOwner
  split
  · exact releaseCtx_leavesPorts s _
  · exact .refl s

theorem beginDigest_leavesPorts (s : State) (c : Fin 4) (i : Nat) : LeavesPorts s (s.beginDigest c i) := by
  unfold State.beginDigest
  split <;> exact .of_same rfl rfl

/-! ## The pair selection procedure -/

theorem setSelection_leavesPorts (s : State) (j : Nat) (sel : Selection) : LeavesPorts s (s.setSelection j sel) := by
  rw [setSelection_eq]
  exact .of_same rfl rfl

theorem failPair_leavesPorts (s : State) (j : Nat) : LeavesPorts s (s.failPair j) :=
  ((setSelection_leavesPorts s j .none).trans (modPair_leavesPorts _ j _)).trans (releaseOwner_leavesPorts _ _)

theorem tryCandidate_leavesPorts (s : State) (j : Nat) (slot : Slot) (st : PairState) : LeavesPorts s (s.tryCandidate j slot st) := by
  unfold State.tryCandidate
  split
  · exact ((setSelection_leavesPorts s j _).trans (modPair_leavesPorts _ j _)).trans (beginDigest_leavesPorts _ _ _)
  · exact .refl s

theorem rankPair_leavesPorts (s : State) (j : Nat) : LeavesPorts s (s.rankPair j) := by
  unfold State.rankPair
  split
  · exact .refl s
  · split
    · exact (modPair_leavesPorts s j _).trans (failPair_leavesPorts _ j)
    · exact (modPair_leavesPorts s j _).trans (tryCandidate_leavesPorts _ j _ _)

theorem candidateVerified_leavesPorts (s : State) (j : Nat) : LeavesPorts s (s.candidateVerified j) := by
  unfold State.candidateVerified
  split
  · exact .refl s
  · dsimp only
    refine LeavesPorts.trans (.of_same ?_ ?_) (releaseOwner_leavesPorts _ _) <;> split <;> rfl

theorem candidateRejected_leavesPorts (s : State) (j : Nat) : LeavesPorts s (s.candidateRejected j) := by
  unfold State.candidateRejected
  split
  · exact .refl s
  · split
    · refine LeavesPorts.trans (.of_same ?_ ?_) (tryCandidate_leavesPorts _ j _ _) <;> split <;> rfl
    · exact failPair_leavesPorts s j

/-! ## Header checks and bytes -/

theorem headerCheck_leavesPorts (s : State) (c : Fin 4) (i : Nat) : LeavesPorts s (s.headerCheck c i) := by
  unfold State.headerCheck
  split
  · split
    · split
      · exact (modRt_leavesPorts s i _).trans (beginDigest_leavesPorts _ c i)
      · exact modRt_leavesPorts s i _
      · exact (modRt_leavesPorts s i _).trans (releaseCtx_leavesPorts _ c)
      · exact modRt_leavesPorts s i _
    · exact .refl s
  · exact .refl s

theorem manifestComplete_leavesPorts (s : State) (c : Fin 4) (i : Nat) : LeavesPorts s (s.manifestComplete c i) := by
  have hcheck := headerCheck_leavesPorts s c i
  unfold State.manifestComplete
  dsimp only
  split
  · split
    · split
      · exact hcheck.trans (rankPair_leavesPorts _ _)
      · exact hcheck
    · exact hcheck
  · exact hcheck

theorem gather_leavesPorts (s : State) (c : Fin 4) (b : Byte) : LeavesPorts s (s.gather c b) := by
  unfold State.gather
  split
  · exact .refl s
  · split
    · exact .refl s
    · dsimp only
      split
      · exact (setCtx_leavesPorts s c _).trans (manifestComplete_leavesPorts _ c _)
      · exact setCtx_leavesPorts s c _

theorem completeDigest_leavesPorts (s : State) (c : Fin 4) (i : Nat) : LeavesPorts s (s.completeDigest c i) := by
  unfold State.completeDigest
  split
  · dsimp only
    split
    · refine LeavesPorts.trans ?_ (releaseCtx_leavesPorts _ c)
      exact .of_same rfl rfl
    · split
      · exact .of_same rfl rfl
      · refine LeavesPorts.trans ?_ (releaseCtx_leavesPorts _ c)
        exact .of_same rfl rfl
  · exact .refl s

theorem absorb_leavesPorts (s : State) (c : Fin 4) (i : Nat) (b : Byte) (seen : Bool) : LeavesPorts s (s.absorb c i b seen) := by
  unfold State.absorb
  split
  · dsimp only
    split
    · refine LeavesPorts.trans ?_ (completeDigest_leavesPorts _ c i)
      exact .of_same rfl rfl
    · exact .of_same rfl rfl
  · exact .refl s

theorem takeByte_leavesPorts (s : State) (c : Fin 4) (b : Byte) : LeavesPorts s (s.takeByte c b) := by
  unfold State.takeByte
  split
  · exact gather_leavesPorts s c b
  · split
    · exact absorb_leavesPorts s c _ b false
    · exact .refl s
  · exact .refl s

/-! ## Accepted writes, check results, the deadline -/

theorem dropWaiting_leavesPorts (s : State) (j : Nat) (slot : Slot) (i : Nat) : LeavesPorts s (s.dropWaiting j slot i) := by
  unfold State.dropWaiting
  split
  · exact .refl s
  · dsimp only
    split
    · refine LeavesPorts.trans (.of_same ?_ ?_) (releaseOwner_leavesPorts _ _) <;> split <;> rfl
    · split <;> exact .of_same rfl rfl

theorem staleInProgress_leavesPorts (s : State) (i : Nat) : LeavesPorts s (s.staleInProgress i) := by
  have hstale := modRt_leavesPorts s i Runtime.markStale
  unfold State.staleInProgress
  dsimp only
  split
  · exact hstale.trans (releaseOwner_leavesPorts _ _)
  · split
    · exact hstale
    · split
      case h_1 | h_2 => exact hstale.trans (releaseOwner_leavesPorts _ _)
      case h_3 => exact hstale
      case h_4 | h_5 =>
        split
        · exact hstale.trans (candidateRejected_leavesPorts _ _)
        · split
          · exact hstale.trans (dropWaiting_leavesPorts _ _ _ _)
          · exact hstale

theorem staleRegion_leavesPorts (s : State) (i : Nat) : LeavesPorts s (s.staleRegion i) := by
  have hstale := modRt_leavesPorts s i Runtime.markStale
  have hsigning := hstale.trans (withdraw_leavesPorts _ i)
  unfold State.staleRegion
  split
  case h_1 | h_2 | h_3 | h_4 => exact .refl s
  case h_5 | h_6 => exact staleInProgress_leavesPorts s i
  case h_7 =>
    dsimp only
    split
    · exact hsigning.trans (candidateRejected_leavesPorts _ _)
    · exact hsigning
  case h_8 | h_9 => exact hstale

theorem staleRange_leavesPorts (s : State) (range : Nat × Nat) : LeavesPorts s (s.staleRange range) :=
  foldl_leavesPorts staleRegion_leavesPorts _ s

theorem applyResult_leavesPorts (s : State) (e : SigEntry) (passed : Bool) : LeavesPorts s (s.applyResult e passed) := by
  unfold State.applyResult
  split
  · dsimp only
    split
    · split
      · exact (modRt_leavesPorts s _ _).trans (candidateVerified_leavesPorts _ _)
      · exact (modRt_leavesPorts s _ _).trans (candidateRejected_leavesPorts _ _)
    · exact modRt_leavesPorts s _ _
  · exact .refl s

theorem rejectOverdue_leavesPorts (s : State) (i : Nat) : LeavesPorts s (s.rejectOverdue i) :=
  ((releaseOwner_leavesPorts s _).trans (modRt_leavesPorts _ i _)).trans (withdraw_leavesPorts _ i)

theorem expire_leavesPorts (s : State) : LeavesPorts s s.expire := by
  have hdropped : LeavesPorts s s.overdueDropped := .of_same rfl rfl
  rw [expire_eq]
  exact (hdropped.trans (foldl_leavesPorts rejectOverdue_leavesPorts _ _)).trans (foldl_leavesPorts failPair_leavesPorts _ _)

theorem newAttempt_leavesPorts (s : State) (i : Nat) : LeavesPorts s (s.newAttempt i) := .of_same rfl rfl

end Sys2Proof.Machine
end

section
/-! PROOFS. Every command, and so every step, keeps the two ports in agreement and fill at FFh (R85, R93 to R96, R134, R152, R175, R177).
Most commands move no line of the upstream port and leave who holds the flash, but for the arbiter's instructions; those that open or end a
transaction, reset, load or provision set the records that agree together. -/

namespace Sys2Proof.Machine

/-! ## A move within the agreement -/

/-- The records of the two ports, of the permit state and of the start that must agree. -/
def State.ports (s : State) : Bool × Bool × PortMode × Option UpByte × PermitState × Load × Bool × Provisioning × Holder :=
  (s.up.tx.isSome, s.up.select, s.up.mode, s.up.out, s.permit, s.load, s.resetN, s.prov, s.fp.holder)

/-- From `s` to `t` no transaction opens or ends and no reset, load or provisioning begins or ends: the permit state moves among the
running ones at most, the flash among what the arbiter gives it to, and fill stays FFh. -/
structure PortsMove (s t : State) : Prop where
  tx : t.up.tx.isSome = s.up.tx.isSome
  select : t.up.select = s.up.select
  mode : t.up.mode = s.up.mode
  load : t.load = s.load
  resetN : t.resetN = s.resetN
  reading : t.prov = .reading ↔ s.prov = .reading
  idle : t.prov = .idle ↔ s.prov = .idle
  permit : t.permit = s.permit ∨ (s.permit.running = true ∧ t.permit.running = true)
  holder : t.fp.holder = s.fp.holder ∨ (s.fp.holder.arbitrated ∧ t.fp.holder.arbitrated)
  out : s.FillIsHigh → t.FillIsHigh

/-- From `s` to `t` the ports stay in agreement and fill at FFh. -/
structure KeepsPorts (s t : State) : Prop where
  ports : s.PortsAgree → t.PortsAgree
  fill : s.FillIsHigh → t.FillIsHigh

theorem fillIsHigh_of_out {s t : State} (h : t.up.out = s.up.out) (hs : s.FillIsHigh) : t.FillIsHigh :=
  fun o ho => hs o (h.symm.trans ho)

theorem fillIsHigh_of_none {t : State} (h : t.up.out = none) : t.FillIsHigh := fun o ho => by simp [h] at ho

theorem PortsMove.of_ports {s t : State} (h : t.ports = s.ports) : PortsMove s t := by
  simp only [State.ports, Prod.mk.injEq] at h
  obtain ⟨htx, hselect, hmode, hout, hpermit, hload, hreset, hprov, hholder⟩ := h
  exact ⟨htx, hselect, hmode, hload, hreset, by rw [hprov], by rw [hprov], .inl hpermit, .inl hholder, fillIsHigh_of_out hout⟩

theorem PortsMove.refl (s : State) : PortsMove s s := .of_ports rfl

theorem PortsMove.trans {s t u : State} (h : PortsMove s t) (h' : PortsMove t u) : PortsMove s u := by
  refine ⟨h'.tx.trans h.tx, h'.select.trans h.select, h'.mode.trans h.mode, h'.load.trans h.load, h'.resetN.trans h.resetN,
    h'.reading.trans h.reading, h'.idle.trans h.idle, ?_, ?_, h'.out ∘ h.out⟩
  · obtain hp | ⟨hs, ht⟩ := h.permit
    · simpa only [hp] using h'.permit
    · obtain hp' | ⟨-, hu⟩ := h'.permit
      · exact .inr ⟨hs, hp'.symm ▸ ht⟩
      · exact .inr ⟨hs, hu⟩
  · obtain hh | ⟨hs, ht⟩ := h.holder
    · simpa only [hh] using h'.holder
    · obtain hh' | ⟨-, hu⟩ := h'.holder
      · exact .inr ⟨hs, hh'.symm ▸ ht⟩
      · exact .inr ⟨hs, hu⟩

theorem free_arbitrated : Holder.free.arbitrated := ⟨by simp, by simp⟩

theorem loading_not_running : ¬ PermitState.loading.running = true := by decide

theorem provisioning_not_running : ¬ PermitState.provisioning.running = true := by decide

/-- A running part is past its load and its provisioning (R152, R175). -/
theorem State.PortsAgree.of_running {s : State} (h : s.PortsAgree) (hrunning : s.permit.running = true) :
    s.load = .none ∧ s.resetN = false ∧ s.prov = .idle := by
  obtain ⟨-, -, -, -, hload, hreset, hprov, -⟩ := h
  refine ⟨by_contra fun hl => ?_, Bool.eq_false_iff.mpr fun hr => ?_, by_contra fun hp => ?_⟩
  · exact loading_not_running (hload hl ▸ hrunning)
  · exact loading_not_running ((hreset hr).1 ▸ hrunning)
  · exact provisioning_not_running (hprov hp ▸ hrunning)

/-- The provisioning procedure runs only in PROVISIONING (R152). -/
theorem State.PortsAgree.provisioning_of_prov {s : State} (h : s.PortsAgree) (hprov : s.prov ≠ .idle) : s.permit = .provisioning := by
  obtain ⟨-, -, -, -, -, -, hproving, -⟩ := h
  exact hproving hprov

/-- RELAYING comes only of a running permit state (R93). -/
theorem State.PortsAgree.running_of_mode {s : State} (h : s.PortsAgree) (hmode : s.up.mode = .relaying) : s.permit.running = true := by
  obtain ⟨-, -, -, hrelaying, -⟩ := h
  exact hrelaying hmode

/-- A transaction in progress is one of RELAYING mode, so that the part runs (R93, R96). -/
theorem State.PortsAgree.running_of_tx {s : State} (h : s.PortsAgree) (htx : s.up.tx.isSome = true) : s.permit.running = true := by
  have hline := h.1
  obtain ⟨-, hmode⟩ := hline.mp htx
  exact h.running_of_mode hmode

/-- The running permit states are those of RELAYING mode (R93). -/
theorem mode_relaying_iff (p : PermitState) : p.mode = .relaying ↔ p.running = true := by
  cases p <;> decide

theorem PortsMove.agrees {s t : State} (h : PortsMove s t) (hs : s.PortsAgree) : t.PortsAgree := by
  obtain ⟨hline, hrelay, hmode, hrelaying, hload, hreset, hprov, hboot⟩ := hs
  have hpermit : t.permit.running = s.permit.running ∧ t.permit.mode = s.permit.mode := by
    obtain hp | ⟨hr, hr'⟩ := h.permit
    · exact ⟨congrArg _ hp, congrArg _ hp⟩
    · exact ⟨hr'.trans hr.symm, ((mode_relaying_iff _).mpr hr').trans ((mode_relaying_iff _).mpr hr).symm⟩
  have hstay : ¬ s.permit.running = true → t.permit = s.permit := fun hn => h.permit.resolve_right fun hr => hn hr.1
  have hholder : (t.fp.holder = .relay ↔ s.fp.holder = .relay)
      ∧ (t.fp.holder = .own .bootstrap ↔ s.fp.holder = .own .bootstrap) := by
    obtain hh | ⟨⟨h1, h2⟩, h3, h4⟩ := h.holder
    · simp only [hh, and_self]
    · simp only [h1, h2, h3, h4, and_self]
  refine ⟨by rw [h.tx, h.select, h.mode, hline], by rw [hholder.1, h.tx, hrelay], fun hsel => ?_, fun hm => ?_, fun hl => ?_,
    fun hr => ?_, fun hp => ?_, by rw [hholder.2, h.reading, hboot]⟩
  · rw [h.mode, hpermit.2]
    exact hmode (h.select ▸ hsel)
  · rw [hpermit.1]
    exact hrelaying (h.mode ▸ hm)
  · have hloading := hload (h.load ▸ hl)
    exact (hstay (hloading ▸ loading_not_running)).trans hloading
  · obtain ⟨hloading, hnone⟩ := hreset (h.resetN ▸ hr)
    exact ⟨(hstay (hloading ▸ loading_not_running)).trans hloading, h.load.trans hnone⟩
  · have hproving := hprov (mt h.idle.mpr hp)
    exact (hstay (hproving ▸ provisioning_not_running)).trans hproving

theorem PortsMove.keeps {s t : State} (h : PortsMove s t) : KeepsPorts s t := ⟨h.agrees, h.out⟩

theorem KeepsPorts.refl (s : State) : KeepsPorts s s := ⟨id, id⟩

theorem KeepsPorts.move {s t u : State} (h : KeepsPorts s t) (h' : PortsMove t u) : KeepsPorts s u :=
  ⟨h'.agrees ∘ h.ports, h'.out ∘ h.fill⟩

/-! ## What the operations of an event move -/

theorem LeavesPorts.move {s t : State} (h : LeavesPorts s t) : PortsMove s t := by
  obtain ⟨hsurface, hholder⟩ := h
  simp only [State.surface, Prod.mk.injEq] at hsurface
  obtain ⟨hup, hpermit, hload, hreset, hprov, -⟩ := hsurface
  refine ⟨by rw [hup], by rw [hup], by rw [hup], hload, hreset, by rw [hprov], by rw [hprov], .inl hpermit, ?_,
    fillIsHigh_of_out (by rw [hup])⟩
  obtain hh | ⟨hs, ht⟩ := hholder
  · exact .inl hh
  · exact .inr ⟨hs, ht ▸ free_arbitrated⟩

/-- The permit decision moves among running permit states. -/
theorem settle_permit_running (s : State) :
    s.settle.permit = s.permit ∨ (s.permit.running = true ∧ s.settle.permit.running = true) := by
  have hcheck : s.grants.takeCheck.permit = s.permit := by simp
  rw [settle_permit]
  obtain ⟨he, -⟩ | ⟨hv, -, he⟩ | ⟨hv, -, -, he⟩ := decidePermit_cases s.grants.takeCheck <;> rw [he]
  · exact .inl hcheck
  all_goals exact .inr ⟨(hcheck.symm.trans hv) ▸ rfl, rfl⟩

theorem settle_move (s : State) : PortsMove s s.settle := by
  refine ⟨by simp, by simp, by simp, by simp, by simp, by simp, by simp, settle_permit_running s, .inl (by simp), ?_⟩
  exact fillIsHigh_of_out (by simp)

/-- The arbiter gives a FREE flash to an instruction of its own. -/
theorem arbitrate_move (s : State) : PortsMove s s.arbitrate := by
  obtain he | ⟨hfree, -, op, _, _, _, hop, he⟩ := arbitrate_cases s
  · rw [he]
    exact .refl s
  · rw [he]
    exact ⟨rfl, rfl, rfl, rfl, rfl, .rfl, .rfl, .inl rfl, .inr ⟨hfree ▸ free_arbitrated, by simp, by simpa using hop⟩, id⟩

/-- Other records may change too. -/
theorem PortsMove.same {s t u : State} (h : PortsMove s t) (h' : u.ports = t.ports) : PortsMove s u := h.trans (.of_ports h')

theorem PortsMove.settle {s t : State} (h : PortsMove s t) : PortsMove s t.settle := h.trans (settle_move t)

theorem PortsMove.arbitrate {s t : State} (h : PortsMove s t) : PortsMove s t.arbitrate := h.trans (arbitrate_move t)

/-- Time passes in a burn of the provisioning, which stays one. -/
theorem elapse_move (s : State) (d : Nat) : PortsMove s (s.elapse d) := by
  refine ⟨rfl, rfl, rfl, rfl, rfl, ?_, ?_, .inl rfl, .inl rfl, id⟩ <;> rw [State.elapse_prov] <;>
    cases s.prov <;> simp [Provisioning.lapse]

/-- An own instruction that ends frees the flash (R134). -/
theorem freeFlash_move {s : State} {op : OwnOp} (h : s.fp.holder = .own op) (hop : op ≠ .bootstrap) : PortsMove s s.freeFlash :=
  ⟨rfl, rfl, rfl, rfl, rfl, .rfl, .rfl, .inl rfl, .inr ⟨h ▸ ⟨by simp, by simpa using hop⟩, free_arbitrated⟩, id⟩

/-- A byte the controller samples is FFh unless it comes from the flash or the response. -/
theorem answer_move {s : State} {b : Byte} {o : Origin} (h : o = .flash ∨ o = .response ∨ b = 0xFF) : PortsMove s (s.answer b o) := by
  refine ⟨rfl, rfl, rfl, rfl, rfl, .rfl, .rfl, .inl rfl, .inl rfl, fun _ v hv => ?_⟩
  obtain rfl := Option.some.inj hv
  exact h

theorem setTx_move {s : State} {x : Tx} (x' : Tx) (h : s.up.tx = some x) : PortsMove s (s.setTx (some x')) :=
  .of_ports (by simp [State.ports, h])

theorem send_move (s : State) (bs : List Byte) : PortsMove s (s.send bs) := .of_ports rfl

theorem wire_move (s : State) (bs : List Byte) : PortsMove s (s.wire bs) := by
  obtain ⟨-, -, he⟩ | ⟨-, he⟩ := wire_cases s bs <;> rw [he] <;> exact .of_ports rfl

/-! ## The bytes of a transaction in progress -/

section
variable {s : State} {x : Tx} (htx : s.up.tx = some x)
include htx

theorem forward_move (x' : Tx) (e : ClassEntry) (bs : List Byte) : PortsMove s (s.forward x' e bs) :=
  .of_ports (by simp [State.ports, State.forward, htx])

theorem truncate_move (x' : Tx) : PortsMove s (s.truncate x') := .of_ports (by simp [State.ports, State.truncate, htx])

theorem refuse_move (x' : Tx) (cls : TxClass) (a : Option Nat) (cause : RefusalCause) : PortsMove s (s.refuse x' cls a cause) :=
  .of_ports (by simp [State.ports, State.refuse, State.truncate, htx])

theorem classify_move (x' : Tx) (b : Byte) (e : ClassEntry) : PortsMove s (s.classify x' b e) := by
  unfold State.classify
  split
  case h_1 => exact .of_ports (by simp [State.ports, htx])
  case h_2 => exact .of_ports (by simp [State.ports, State.truncate, htx])
  case h_3 =>
    split
    · exact forward_move htx _ _ _
    · exact truncate_move htx _
  case h_4 =>
    dsimp only
    split
    · exact refuse_move htx _ _ _ _
    · exact forward_move htx _ _ _
  case h_5 =>
    split
    · exact forward_move htx _ _ _
    · exact refuse_move htx _ _ _ _
  all_goals exact forward_move htx _ _ _

theorem address_move (x' : Tx) (e : ClassEntry) (a : BitVec 32) : PortsMove s (s.address x' e a) := by
  have hread : PortsMove s (s.addressRead x' e a) := by
    unfold State.addressRead
    dsimp only
    split <;> exact .of_ports (by simp [State.ports, htx])
  have hwrite : PortsMove s (s.addressWrite x' e a) := by
    unfold State.addressWrite
    dsimp only
    split
    · exact PortsMove.trans (send_move s _) (refuse_move (by exact htx) _ _ _ _)
    · exact .of_ports (by simp [State.ports, htx])
  unfold State.address
  split
  case h_1 => exact hread
  case h_2 | h_3 | h_4 => exact hwrite
  all_goals exact (setTx_move x' htx).trans (send_move _ _)

theorem serviceByte_move (e : ClassEntry) (b : Byte) : PortsMove s (s.serviceByte x e b) := by
  have hfetch (n : Nat) (u : State) : PortsMove u (u.fetched n) := .of_ports rfl
  have hhigh (x' : Tx) : PortsMove s ((s.setTx (some x')).answer 0xFF .high) :=
    (setTx_move x' htx).trans (answer_move (.inr (.inr rfl)))
  unfold State.serviceByte
  dsimp only
  split
  · split
    · exact setTx_move _ htx
    · exact .of_ports (by simp [State.ports, htx])
  · split
    · exact setTx_move _ htx
    · split
      · exact ((setTx_move _ htx).trans (answer_move (.inr (.inl rfl)))).trans (hfetch _ _)
      · split
        · exact setTx_move _ htx
        · exact hhigh _
    · exact hhigh _
  · exact ((setTx_move _ htx).trans (send_move _ _)).trans (answer_move (.inr (.inr rfl)))
  · exact setTx_move _ htx
  · exact setTx_move _ htx

end

theorem offer_move (s : State) (a : Nat) (b : Byte) : PortsMove s (s.offer a b) := by
  unfold State.offer
  split
  · split
    · exact (absorb_leavesPorts s _ _ b true).move.settle
    · exact (absorb_leavesPorts s _ _ b true).move
  · exact .refl s

theorem snoop_move (s : State) (b : Byte) : PortsMove s (s.snoop b) := by
  unfold State.snoop
  split <;> exact .of_ports rfl

theorem dataByte_move {s : State} {x : Tx} (htx : s.up.tx = some x) (e : ClassEntry) (b : Byte) : PortsMove s (s.dataByte x e b) := by
  have hflash (x' : Tx) : PortsMove s ((s.setTx (some x')).answer b .flash) := (setTx_move x' htx).trans (answer_move (.inl rfl))
  have hfill (x' : Tx) (o : Origin) : PortsMove s ((s.setTx (some x')).answer 0xFF o) :=
    (setTx_move x' htx).trans (answer_move (.inr (.inr rfl)))
  unfold State.dataByte
  dsimp only
  split
  case h_1 => exact serviceByte_move htx e b
  case h_2 => exact hfill _ _
  case h_3 => exact setTx_move _ htx
  case h_4 => exact hfill _ _
  case h_5 =>
    unfold State.readByte
    dsimp only
    split
    · exact (hflash _).trans (offer_move _ _ b)
    · exact hfill _ _
  case h_6 =>
    split
    · exact (hflash _).trans (snoop_move _ b)
    · exact hflash _
  case h_7 => exact hflash _
  case h_8 => exact (setTx_move _ htx).trans (send_move _ _)

/-! ## Run start and requests -/

theorem endBurst_holder (f : FlashPort) : f.endBurst.holder = f.holder ∨ (f.holder.arbitrated ∧ f.endBurst.holder = .free) := by
  unfold FlashPort.endBurst
  split
  · rename_i c left h
    exact .inr ⟨h ▸ burst_arbitrated c left, rfl⟩
  · exact .inl rfl

/-- A run start in a running part ends a burst at most (R36, R137). -/
theorem newRun_move {s : State} (cause : StartCause) (h : s.permit.running = true) : PortsMove s (s.newRun cause).drive := by
  refine ⟨rfl, rfl, rfl, rfl, rfl, .rfl, .rfl, .inr ⟨h, rfl⟩, ?_, id⟩
  obtain hh | ⟨hs, ht⟩ := endBurst_holder s.fp
  · exact .inl hh
  · exact .inr ⟨hs, show s.fp.endBurst.holder.arbitrated from ht ▸ free_arbitrated⟩

theorem place_move (s : State) (code arg : Byte) (status : Status) (data : List Byte) : PortsMove s (s.place code arg status data) :=
  .of_ports rfl

theorem startBurn_move (s : State) (job : BurnJob) : PortsMove s (s.startBurn job) := .of_ports rfl

theorem takeRestart_move (s : State) : PortsMove s s.takeRestart := by
  have hstart (h : s.permit.running = true) : PortsMove s (s.runStart .restart) := (newRun_move .restart h).settle
  unfold State.takeRestart
  split
  case h_1 h | h_2 h => exact (hstart (h ▸ rfl)).trans (place_move _ _ _ _ _)
  all_goals exact place_move _ _ _ _ _

theorem takeRequest_move (s : State) (q : Request) : PortsMove s (s.takeRequest q) := by
  cases q with
  | report => exact .of_ports rfl
  | peek => exact .of_ports rfl
  | unknown code => exact .of_ports rfl
  | restart => exact takeRestart_move s
  | detail index =>
    change PortsMove s (s.takeDetail index)
    unfold State.takeDetail
    split <;> exact place_move _ _ _ _ _
  | verify index =>
    change PortsMove s (s.takeVerify index)
    unfold State.takeVerify
    dsimp only
    split
    · exact (newAttempt_leavesPorts s _).move.settle.trans (place_move _ _ _ _ _)
    · exact place_move _ _ _ _ _
  | raiseFloor kind =>
    change PortsMove s (s.takeRaise kind)
    unfold State.takeRaise
    dsimp only
    split
    · exact (startBurn_move s _).trans (place_move _ _ _ _ _)
    · exact place_move _ _ _ _ _
  | revoke slot =>
    change PortsMove s (s.takeRevoke slot)
    unfold State.takeRevoke
    dsimp only
    split
    · exact (startBurn_move s _).trans (place_move _ _ _ _ _)
    · exact place_move _ _ _ _ _

theorem takeBytes_move (s : State) (bytes : List Byte) : PortsMove s (s.takeBytes bytes) := by
  unfold State.takeBytes
  split
  · exact takeRequest_move s _
  · exact .refl s

/-! ## Opening and ending a transaction -/

/-- A transaction that opens in a listening part takes the relay with it (R96, R134). -/
theorem portsAgree_of_opened {s t : State} (hs : s.PortsAgree) (hmode : s.up.mode = .relaying)
    (hup : ∃ x out, t.up = ⟨true, .relaying, some x, out⟩) (hholder : t.fp.holder = .relay)
    (hrest : (t.permit, t.load, t.resetN, t.prov) = (s.permit, s.load, s.resetN, s.prov)) : t.PortsAgree := by
  obtain ⟨x, out, hup⟩ := hup
  obtain ⟨hpermit, hload, hreset, hprov⟩ : t.permit = s.permit ∧ t.load = s.load ∧ t.resetN = s.resetN ∧ t.prov = s.prov := by
    simpa using hrest
  have hrunning : s.permit.running = true := hs.running_of_mode hmode
  obtain ⟨hnone, hhigh, hidle⟩ := hs.of_running hrunning
  exact ⟨by simp [hup], by simp [hup, hholder], by simp [hup], fun _ => hpermit ▸ hrunning, by simp [hload, hnone],
    by simp [hreset, hhigh], by simp [hprov, hidle], by simp [hholder, hprov, hidle]⟩

/-- A transaction that is over leaves the flash FREE and the mode that of the permit state (R94, R100, R134). -/
theorem portsAgree_of_ended {s t : State} (hs : s.PortsAgree) (hrunning : s.permit.running = true)
    (hup : ∃ out, t.up = ⟨false, s.permit.mode, none, out⟩) (hholder : t.fp.holder = .free)
    (hrest : (t.permit, t.load, t.resetN, t.prov) = (s.permit, s.load, s.resetN, s.prov)) : t.PortsAgree := by
  obtain ⟨out, hup⟩ := hup
  obtain ⟨hpermit, hload, hreset, hprov⟩ : t.permit = s.permit ∧ t.load = s.load ∧ t.resetN = s.resetN ∧ t.prov = s.prov := by
    simpa using hrest
  obtain ⟨hnone, hhigh, hidle⟩ := hs.of_running hrunning
  exact ⟨by simp [hup], by simp [hup, hholder], by simp [hup, hpermit], fun _ => hpermit ▸ hrunning, by simp [hload, hnone],
    by simp [hreset, hhigh], by simp [hprov, hidle], by simp [hholder, hprov, hidle]⟩

theorem endTx_keepsPorts {s : State} (htx : s.up.tx.isSome = true) : KeepsPorts s s.endTx := by
  refine ⟨fun hs => ?_, ?_⟩
  · exact portsAgree_of_ended hs (hs.running_of_tx htx) ⟨s.up.out, rfl⟩ (by simp [State.endTx, FlashPort.toFree])
      (by simp [State.endTx])
  · exact fillIsHigh_of_out (by simp [State.endTx, settleMode_eq])

theorem afterService_keepsPorts {s : State} (hmode : s.up.mode = .relaying) : KeepsPorts s s.afterService := by
  refine ⟨fun hs => ?_, fun _ => fillIsHigh_of_none (by simp [State.afterService, settleMode_eq])⟩
  exact portsAgree_of_ended hs (hs.running_of_mode hmode) ⟨none, rfl⟩ (by simp [State.afterService, FlashPort.toFree])
    (by simp [State.afterService])

theorem acceptWrite_move (s : State) (x : Tx) : PortsMove s (s.acceptWrite x) := by
  have hmark : PortsMove s s.written := .of_ports rfl
  unfold State.acceptWrite
  split
  · exact .refl s
  · dsimp only
    split
    · exact (hmark.trans (staleRange_leavesPorts s.written _).move).settle
    · exact hmark

theorem judgeRise_move (s : State) (x : Tx) : PortsMove s (s.judgeRise x) := by
  have haccept (cls : TxClass) : PortsMove s (s.accept x cls) := by
    unfold State.accept
    split
    case h_1 | h_2 | h_3 | h_4 | h_5 => exact acceptWrite_move s x
    all_goals exact .of_ports rfl
  unfold State.judgeRise
  split
  · exact .refl s
  · split
    · exact haccept _
    · split <;> exact .of_ports rfl

theorem handCauses_move (s : State) (x : Tx) : PortsMove s (s.handCauses x) := by
  rw [handCauses_eq]
  exact .of_ports rfl

theorem rise_keepsPorts {s : State} (htx : s.up.tx.isSome = true) (x : Tx) : KeepsPorts s (s.rise x) := by
  have hjudge := (judgeRise_move s x).trans (handCauses_move _ x)
  have hend := endTx_keepsPorts (hjudge.tx.trans htx)
  have hover : KeepsPorts s ((s.judgeRise x).handCauses x).endTx := ⟨hend.ports ∘ hjudge.agrees, hend.fill ∘ hjudge.out⟩
  unfold State.rise State.handRequest
  refine KeepsPorts.move ?_ (arbitrate_move _)
  split
  · exact hover.move (takeBytes_move _ _)
  · exact hover

theorem request_keepsPorts (s : State) (bytes : List Byte) : KeepsPorts s (s.request bytes) := by
  unfold State.request
  split
  · split
    · rename_i h
      exact ((afterService_keepsPorts h.1).move (takeBytes_move _ bytes)).move (arbitrate_move _)
    · exact .refl s
  · rename_i x htx
    split
    · exact rise_keepsPorts (by simp [htx]) _
    · exact .refl s

/-! ## The mode that follows the permit state -/

/-- The ports agree but for the mode, which a deasserted select lets follow: no transaction is in progress, none can be, and the start is
over or provisioning. -/
structure State.Unsettled (s : State) : Prop where
  tx : s.up.tx = none
  mode : s.up.mode ≠ .relaying
  load : s.load = .none
  resetN : s.resetN = false
  prov : s.prov ≠ .idle → s.permit = .provisioning
  holder : s.fp.holder ≠ .relay
  bootstrap : s.fp.holder = .own .bootstrap ↔ s.prov = .reading

theorem State.Unsettled.settleMode {s : State} (h : s.Unsettled) : s.settleMode.PortsAgree := by
  obtain ⟨htx, hmode, hload, hreset, hprov, hholder, hboot⟩ := h
  rw [settleMode_eq]
  cases hselect : s.up.select
  · exact ⟨by simp [htx, hselect], by simp [htx, hholder], by simp, (mode_relaying_iff _).mp, by simp [hload],
      by simp [hreset], hprov, hboot⟩
  · exact ⟨by simp [htx, hmode], by simp [htx, hholder], by simp [hselect], by simp [hmode], by simp [hload], by simp [hreset], hprov,
      hboot⟩

/-! ## The commands: resets, load and provisioning -/

/-- After a reset the ports agree, whether a load begins or RESET_N is held low. -/
theorem afterReset_agrees (pending : List Instr) (store : Store) (run : BitVec 16) (resetN upSelect : Bool) (straps : Straps)
    (cause : StartCause) (load : Load) (h : resetN = true → load = .none) :
    ({ State.afterReset pending store run resetN upSelect straps cause with load } : State).PortsAgree := by
  refine ⟨?_, ?_, ?_, ?_, ?_, ?_, ?_, ?_⟩ <;> simp [State.afterReset, FlashPort.afterReset, PermitState.mode]
  exact h

theorem execPowerOn_keepsPorts {s t : State} {mode clkbyp cutReads : Bool} (h : execPowerOn mode clkbyp cutReads s = .next t) :
    KeepsPorts s t := by
  cases h
  exact ⟨fun _ => afterReset_agrees _ _ _ _ _ _ _ _ fun hr => if_pos hr, fun _ => fillIsHigh_of_none rfl⟩

theorem execResetNAssert_keepsPorts {s t : State} (h : execResetNAssert s = .next t) : KeepsPorts s t := by
  unfold execResetNAssert at h
  split at h <;> cases h
  · exact .refl s
  · exact ⟨fun _ => afterReset_agrees _ _ _ _ _ _ _ .none fun _ => rfl, fun _ => fillIsHigh_of_none rfl⟩

theorem execResetNRelease_keepsPorts {s t : State} {mode clkbyp cutReads : Bool} (h : execResetNRelease mode clkbyp cutReads s = .next t) :
    KeepsPorts s t := by
  unfold execResetNRelease at h
  split at h <;> cases h
  · rename_i hreset
    refine ⟨fun hs => ?_, id⟩
    obtain ⟨hline, hrelay, hmode, hrelaying, -, hlow, hprov, hboot⟩ := hs
    exact ⟨hline, hrelay, hmode, hrelaying, fun _ => (hlow hreset).1, nofun, hprov, hboot⟩
  · exact .refl s

/-- What a load leads to leaves the mode alone to follow (R175). -/
theorem afterLoad_unsettled {s : State} (h : s.Unsettled) (hidle : s.prov = .idle) : s.afterLoad.Unsettled := by
  obtain ⟨htx, hmode, hload, hreset, -, hholder, hboot⟩ := h
  have hnoBoot : s.fp.holder ≠ .own .bootstrap := fun hh => by simpa [hidle] using hboot.mp hh
  unfold State.afterLoad
  split
  · split
    · rename_i c _
      have hend : ((s.handOver c).runStart s.resetCause).fp.holder = s.fp.endBurst.holder := congrArg FlashPort.holder (State.settle_fp _)
      have hprov : ((s.handOver c).runStart s.resetCause).prov = .idle := (State.settle_prov _).trans hidle
      have hup : ((s.handOver c).runStart s.resetCause).up = s.up := State.settle_up _
      have hkept : s.fp.endBurst.holder ≠ .relay ∧ s.fp.endBurst.holder ≠ .own .bootstrap := by
        obtain hh | ⟨-, hh⟩ := endBurst_holder s.fp <;> rw [hh]
        · exact ⟨hholder, hnoBoot⟩
        · exact free_arbitrated
      exact ⟨hup ▸ htx, hup ▸ hmode, (State.settle_load _).trans hload, (State.settle_resetN _).trans hreset, by simp [hprov],
        by rw [hend]; exact hkept.1, by simp [hend, hprov, hkept.2]⟩
    · exact ⟨htx, hmode, hload, hreset, fun hp => absurd rfl hp, hholder, by simpa [State.enterFault] using hnoBoot⟩
  · split
    · exact ⟨htx, hmode, hload, hreset, fun _ => rfl, nofun,
        by simp [State.enterProvisioning, FlashPort.issueBootstrap, FlashPort.issue]⟩
    · split
      · exact ⟨htx, hmode, hload, hreset, fun hp => absurd hidle hp, hholder, hboot⟩
      · exact ⟨htx, hmode, hload, hreset, fun hp => absurd rfl hp, hholder, by simpa [State.enterFault] using hnoBoot⟩

theorem afterLoad_up (s : State) : s.afterLoad.up = s.up := by
  unfold State.afterLoad
  repeat' split
  case h_1 => exact State.settle_up _
  all_goals rfl

theorem execLoadComplete_keepsPorts {s t : State} (h : execLoadComplete s = .next t) : KeepsPorts s t := by
  unfold execLoadComplete at h
  split at h <;> cases h
  · exact .refl s
  · rename_i reads hrunning
    refine KeepsPorts.move ⟨fun hs => State.Unsettled.settleMode ?_, fillIsHigh_of_out ?_⟩ (arbitrate_move _)
    · obtain ⟨hline, hrelay, -, hrelaying, hload, hreset, hprov, hboot⟩ := hs
      have hloading : s.permit = .loading := hload (by simp [hrunning])
      have hmode : s.up.mode ≠ .relaying := fun hm => loading_not_running (hloading ▸ hrelaying hm)
      have htx : s.up.tx = none := Option.not_isSome_iff_eq_none.mp fun ht => hmode (hline.mp ht).2
      have hidle : s.prov = .idle := by simpa [hloading] using hprov
      have hhigh : s.resetN = false := by simpa [hrunning] using hreset
      refine afterLoad_unsettled ⟨htx, hmode, rfl, hhigh, fun hp => absurd hidle hp, ?_, hboot⟩ hidle
      exact fun hh => by simpa [htx] using hrelay.mp hh
    · rw [settleMode_eq, afterLoad_up]

/-- In PROVISIONING the ports agree with whatever the burn leads on to, all of it DETACHED, once its read is over (R152, R177). -/
theorem portsAgree_of_provisioning {s t : State} (hs : s.PortsAgree) (hpermit : s.permit = .provisioning) (hup : t.up = s.up)
    (hload : t.load = s.load) (hreset : t.resetN = s.resetN) (hholder : t.fp.holder.arbitrated) (hmode : t.permit.mode = .detached)
    (hreading : t.prov ≠ .reading) (hprov : t.prov ≠ .idle → t.permit = .provisioning) : t.PortsAgree := by
  obtain ⟨hline, -, hfollows, hrelaying, hload', hreset', -, -⟩ := hs
  have hnot : s.up.mode ≠ .relaying := fun hm => provisioning_not_running (hpermit ▸ hrelaying hm)
  have htx : s.up.tx = none := Option.not_isSome_iff_eq_none.mp fun ht => hnot (hline.mp ht).2
  have hnone : s.load = .none := by simpa [hpermit] using hload'
  have hhigh : s.resetN = false := by simpa [hpermit] using hreset'
  obtain ⟨hrelay, hboot⟩ := hholder
  refine ⟨by simp [hup, htx, hnot], by simp [hup, htx, hrelay], fun hsel => ?_, fun hm => absurd (hup ▸ hm) hnot,
    by simp [hload, hnone], by simp [hreset, hhigh], hprov, by simp [hboot, hreading]⟩
  rw [hmode, hup, hfollows (hup ▸ hsel), hpermit]
  rfl

/-- The burn goes on, or ends in PROVISIONED (R177). -/
theorem burnNext_drive_keepsPorts {s u : State} (want : Store) (h : s.PortsAgree → s.permit = .provisioning ∧ u.fp.holder.arbitrated)
    (hrest : (u.up, u.permit, u.load, u.resetN) = (s.up, s.permit, s.load, s.resetN)) : KeepsPorts s (u.burnNext want).drive := by
  obtain ⟨hup, hpermit, hload, hreset⟩ : u.up = s.up ∧ u.permit = s.permit ∧ u.load = s.load ∧ u.resetN = s.resetN := by
    simpa using hrest
  unfold State.burnNext
  split
  · refine ⟨fun hs => ?_, fillIsHigh_of_out (congrArg Upstream.out hup)⟩
    obtain ⟨hproving, hholder⟩ := h hs
    have hstays : u.permit = .provisioning := hpermit.trans hproving
    exact portsAgree_of_provisioning hs hproving hup hload hreset hholder (congrArg PermitState.mode hstays) nofun fun _ => hstays
  · refine ⟨fun hs => ?_, fillIsHigh_of_out (congrArg Upstream.out hup)⟩
    obtain ⟨hproving, hholder⟩ := h hs
    exact portsAgree_of_provisioning hs hproving hup hload hreset hholder rfl nofun fun hp => absurd rfl hp

theorem execBootstrapReadComplete_keepsPorts {s t : State} {image : List Byte} (h : execBootstrapReadComplete image s = .next t) :
    KeepsPorts s t := by
  unfold execBootstrapReadComplete at h
  dsimp only at h
  split at h
  · rename_i hread
    obtain ⟨hreading, -⟩ := hread
    have hproving : s.PortsAgree → s.permit = .provisioning := fun hs => hs.provisioning_of_prov (by simp [hreading])
    have hfault : KeepsPorts s s.freeFlash.enterFault.drive :=
      ⟨fun hs => portsAgree_of_provisioning hs (hproving hs) rfl rfl rfl free_arbitrated rfl nofun fun hp => absurd rfl hp, id⟩
    split at h
    · cases h
      exact hfault
    · split at h
      · cases h
        exact hfault
      · obtain rfl := Host.Outcome.next.inj h
        exact burnNext_drive_keepsPorts _ (fun hs => ⟨hproving hs, free_arbitrated⟩) rfl
  · cases h
    exact .refl s

theorem execProvisionCellBurnComplete_keepsPorts {s t : State} (h : execProvisionCellBurnComplete s = .next t) : KeepsPorts s t := by
  unfold execProvisionCellBurnComplete at h
  split at h
  · rename_i want cell left hburning
    obtain rfl := Host.Outcome.next.inj h
    refine burnNext_drive_keepsPorts want (fun hs => ?_) rfl
    obtain ⟨hline, hrelay, -, hrelaying, -, -, hprov, hboot⟩ := hs
    have hproving : s.permit = .provisioning := hprov (by simp [hburning])
    have hidle : ¬ s.up.tx.isSome = true := fun ht => provisioning_not_running (hproving ▸ hrelaying (hline.mp ht).2)
    exact ⟨hproving, mt hrelay.mp hidle, fun hh => by simpa [hburning] using hboot.mp hh⟩
  · cases h
    exact .refl s
  · cases h
    exact .refl s

/-! ## The commands: the upstream port -/

theorem execUpstreamSelectAssert_keepsPorts {s t : State} (h : execUpstreamSelectAssert s = .next t) : KeepsPorts s t := by
  unfold execUpstreamSelectAssert at h
  dsimp only at h
  split at h
  · cases h
    exact .refl s
  · have hother (u : State) (hmode : s.up.mode ≠ .relaying) (hup : u.up = { s.up with select := true, out := none })
        (hholder : u.fp.holder = s.fp.holder) (hrest : (u.permit, u.load, u.resetN, u.prov) = (s.permit, s.load, s.resetN, s.prov)) :
        KeepsPorts s u := by
      obtain ⟨hpermit, hload, hreset, hprov⟩ : u.permit = s.permit ∧ u.load = s.load ∧ u.resetN = s.resetN ∧ u.prov = s.prov := by
        simpa using hrest
      refine ⟨fun hs => ?_, fun _ => fillIsHigh_of_none (by rw [hup])⟩
      obtain ⟨hline, hrelay, -, -, hload', hreset', hprov', hboot⟩ := hs
      rw [State.PortsAgree, hup, hholder, hpermit, hload, hreset, hprov]
      exact ⟨by simpa [hmode] using hline, hrelay, nofun, fun hm => absurd hm hmode, hload', hreset', hprov', hboot⟩
    split at h <;> cases h
    · rename_i hmode
      exact hother _ (by simp [hmode]) rfl rfl rfl
    · rename_i hmode
      exact hother _ (by simp [hmode]) rfl rfl rfl
    · rename_i hmode
      refine ⟨fun hs => portsAgree_of_opened hs hmode ⟨Tx.opened, none, ?_⟩ rfl rfl, fun _ => fillIsHigh_of_none rfl⟩
      rw [← hmode]

theorem execInstructionByteComplete_keepsPorts {s t : State} {b : Byte} (h : execInstructionByteComplete b s = .next t) :
    KeepsPorts s t := by
  unfold execInstructionByteComplete at h
  split at h
  · rename_i x htx
    split at h <;> cases h
    · exact (classify_move htx _ b _).keeps
    · exact .refl s
  · cases h
    exact (wire_move s [b]).keeps

theorem execAddressComplete_keepsPorts {s t : State} {a : BitVec 32} (h : execAddressComplete a s = .next t) : KeepsPorts s t := by
  unfold execAddressComplete at h
  split at h
  · rename_i x htx
    split at h <;> cases h
    · exact (address_move htx _ _ a).keeps
    · exact .refl s
  · cases h
    exact (wire_move s _).keeps

theorem execDummyCountComplete_keepsPorts {s t : State} (h : execDummyCountComplete s = .next t) : KeepsPorts s t := by
  unfold execDummyCountComplete at h
  split at h
  · rename_i x htx
    split at h <;> cases h
    · exact (setTx_move _ htx).keeps
    · exact .refl s
  · cases h
    exact .refl s

theorem execUpstreamDataByte_keepsPorts {s t : State} {b : Byte} (h : execUpstreamDataByte b s = .next t) : KeepsPorts s t := by
  unfold execUpstreamDataByte at h
  split at h
  · cases h
    split
    · exact (answer_move (.inr (.inr rfl))).keeps
    · exact .refl s
  · cases h
    split
    · exact ((wire_move s [b]).trans (answer_move (.inl rfl))).keeps
    · exact .refl s
  · split at h
    · rename_i x htx
      split at h <;> cases h
      · exact (dataByte_move htx _ b).keeps
      · exact .refl s
    · cases h
      exact .refl s

theorem execUpstreamSelectRise_keepsPorts {s t : State} {clocks : Fin 8} (h : execUpstreamSelectRise clocks s = .next t) :
    KeepsPorts s t := by
  have hquiet (f : FlashPort) (htx : s.up.tx = none) (hf : f.holder = s.fp.holder) :
      KeepsPorts s ({ s with up := { s.up with select := false }, fp := f } : State).settleMode := by
    refine ⟨fun hs => ?_, fillIsHigh_of_out (by simp [settleMode_eq])⟩
    obtain ⟨-, hrelay, -, -, hload, hreset, hprov, hboot⟩ := hs
    exact ⟨by simp [htx, settleMode_eq], by simpa [htx, hf, settleMode_eq] using hrelay, fun _ => rfl,
      (mode_relaying_iff _).mp, hload, hreset, hprov, by simpa [hf] using hboot⟩
  unfold execUpstreamSelectRise at h
  split at h
  · split at h <;> cases h
    · rename_i x _ htx
      exact rise_keepsPorts (by simp [htx]) _
    · rename_i htx _
      exact hquiet { s.fp with select := false } htx rfl
    · rename_i htx _
      exact hquiet s.fp htx rfl
  · cases h
    exact .refl s

theorem execFetch_keepsPorts {s t : State} (h : execFetch s = .next t) : KeepsPorts s t := by
  unfold execFetch at h
  split at h
  · split at h <;> cases h
    · rename_i hlisten
      obtain ⟨hmode, -⟩ := hlisten
      refine ⟨fun hs => portsAgree_of_opened hs hmode ⟨s.fetchTx, none, ?_⟩ rfl rfl, fun _ => fillIsHigh_of_none rfl⟩
      rw [← hmode]
    · exact .refl s
  · rename_i x htx
    split at h <;> cases h
    · exact (setTx_move _ htx).keeps
    · exact .refl s

theorem execUnknownRequest_keepsPorts {s t : State} {code : Byte} (h : execUnknownRequest code s = .next t) : KeepsPorts s t := by
  unfold execUnknownRequest at h
  split at h <;> cases h
  · exact .refl s
  · exact request_keepsPorts s _

/-! ## Completions and expiries -/

theorem countBurst_move (s : State) (c : Fin 4) (left : Nat) : PortsMove s (s.countBurst c left) := by
  unfold State.countBurst
  split
  · rename_i hfor
    obtain ⟨n, hholder⟩ := burstFor_holder hfor
    split
    · exact freeFlash_move hholder nofun
    · exact ⟨rfl, rfl, rfl, rfl, rfl, .rfl, .rfl, .inl rfl, .inr ⟨hholder ▸ burst_arbitrated c n, burst_arbitrated c _⟩, id⟩
  · exact .refl s

theorem execBurstByteReceived_move {s t : State} {b : Byte} (h : execBurstByteReceived b s = .next t) : PortsMove s t := by
  unfold execBurstByteReceived at h
  split at h <;> cases h
  · rename_i c left _
    have hbyte := (takeByte_leavesPorts s c b).move.trans (countBurst_move _ c left)
    refine PortsMove.arbitrate ?_
    split
    · exact hbyte.settle
    · exact hbyte
  · exact .refl s

theorem execSignatureCheckComplete_move {s t : State} (h : execSignatureCheckComplete s = .next t) : PortsMove s t := by
  unfold execSignatureCheckComplete at h
  split at h <;> cases h
  · rename_i e withdrawn key left _
    have hfreed : PortsMove s { s.elapse left with sigUnit := .idle } := (elapse_move s left).same rfl
    refine PortsMove.arbitrate (PortsMove.settle ?_)
    split
    · exact hfreed
    · exact hfreed.trans (applyResult_leavesPorts _ e _).move
  · exact .refl s

theorem execDeadlineExpiry_move {s t : State} (h : execDeadlineExpiry s = .next t) : PortsMove s t := by
  unfold execDeadlineExpiry at h
  split at h <;> cases h
  · exact ((elapse_move s _).trans (expire_leavesPorts _).move).settle.arbitrate
  · exact .refl s

theorem execHoldPulseExpiry_move {s t : State} (h : execHoldPulseExpiry s = .next t) : PortsMove s t := by
  unfold execHoldPulseExpiry at h
  split at h <;> cases h
  · exact (elapse_move s _).same rfl
  · exact .refl s
  · exact .refl s

theorem execWakeComplete_move {s t : State} (h : execWakeComplete s = .next t) : PortsMove s t := by
  unfold execWakeComplete at h
  split at h <;> cases h
  · rename_i hholder
    exact PortsMove.arbitrate ((freeFlash_move hholder nofun).same rfl)
  · exact .refl s

theorem execWakeWaitEnd_move {s t : State} (h : execWakeWaitEnd s = .next t) : PortsMove s t := by
  unfold execWakeWaitEnd at h
  split at h <;> cases h
  · rename_i left _
    exact PortsMove.arbitrate ((elapse_move s left).same rfl)
  · exact .refl s

theorem execStatusPollComplete_move {s t : State} {status : Byte} (h : execStatusPollComplete status s = .next t) : PortsMove s t := by
  unfold execStatusPollComplete at h
  split at h <;> cases h
  · rename_i hholder
    refine PortsMove.arbitrate ((freeFlash_move hholder nofun).same ?_)
    split <;> rfl
  · exact .refl s

theorem execPollWaitEnd_move {s t : State} (h : execPollWaitEnd s = .next t) : PortsMove s t := by
  unfold execPollWaitEnd at h
  split at h <;> cases h
  · rename_i left _
    exact PortsMove.arbitrate ((elapse_move s left).same rfl)
  · exact .refl s

theorem execWriteDisableComplete_move {s t : State} (h : execWriteDisableComplete s = .next t) : PortsMove s t := by
  unfold execWriteDisableComplete at h
  split at h <;> cases h
  · rename_i hholder
    exact PortsMove.arbitrate ((freeFlash_move hholder nofun).same rfl)
  · exact .refl s

theorem execSleepComplete_move {s t : State} (h : execSleepComplete s = .next t) : PortsMove s t := by
  unfold execSleepComplete at h
  split at h <;> cases h
  · rename_i hholder
    exact PortsMove.arbitrate ((freeFlash_move hholder nofun).same rfl)
  · exact .refl s

theorem execFloorCellComplete_move {s t : State} (h : execFloorCellComplete s = .next t) : PortsMove s t := by
  unfold execFloorCellComplete at h
  split at h <;> cases h
  · rename_i left _
    exact (elapse_move s left).same rfl
  · exact .refl s

theorem execRevokeCellComplete_move {s t : State} (h : execRevokeCellComplete s = .next t) : PortsMove s t := by
  unfold execRevokeCellComplete at h
  split at h <;> cases h
  · rename_i left _
    exact (elapse_move s left).same rfl
  · exact .refl s

/-! ## The step -/

theorem exec_keepsPorts {c : Instr} {s t : State} (h : exec c s = .next t) : KeepsPorts s t := by
  have hrequest {bytes : List Byte} (h : Host.Outcome.next (s.request bytes) = (.next t : Result)) : KeepsPorts s t := by
    cases h
    exact request_keepsPorts s bytes
  cases c with
  | powerOn => exact execPowerOn_keepsPorts h
  | resetNAssert => exact execResetNAssert_keepsPorts h
  | resetNRelease => exact execResetNRelease_keepsPorts h
  | loadComplete => exact execLoadComplete_keepsPorts h
  | bootstrapReadComplete => exact execBootstrapReadComplete_keepsPorts h
  | provisionCellBurnComplete => exact execProvisionCellBurnComplete_keepsPorts h
  | upstreamSelectAssert => exact execUpstreamSelectAssert_keepsPorts h
  | instructionByteComplete => exact execInstructionByteComplete_keepsPorts h
  | addressComplete => exact execAddressComplete_keepsPorts h
  | dummyCountComplete => exact execDummyCountComplete_keepsPorts h
  | upstreamDataByte => exact execUpstreamDataByte_keepsPorts h
  | upstreamSelectRise => exact execUpstreamSelectRise_keepsPorts h
  | report | peek | detail | verify | restart | raiseFloor | revoke => exact hrequest h
  | fetch => exact execFetch_keepsPorts h
  | unknownRequest => exact execUnknownRequest_keepsPorts h
  | burstByteReceived => exact (execBurstByteReceived_move h).keeps
  | signatureCheckComplete => exact (execSignatureCheckComplete_move h).keeps
  | deadlineExpiry => exact (execDeadlineExpiry_move h).keeps
  | holdPulseExpiry => exact (execHoldPulseExpiry_move h).keeps
  | wakeComplete => exact (execWakeComplete_move h).keeps
  | wakeWaitEnd => exact (execWakeWaitEnd_move h).keeps
  | statusPollComplete => exact (execStatusPollComplete_move h).keeps
  | pollWaitEnd => exact (execPollWaitEnd_move h).keeps
  | writeDisableComplete => exact (execWriteDisableComplete_move h).keeps
  | sleepComplete => exact (execSleepComplete_move h).keeps
  | floorCellComplete => exact (execFloorCellComplete_move h).keeps
  | revokeCellComplete => exact (execRevokeCellComplete_move h).keeps

theorem step_keepsPorts {s t : State} (h : step s = .next t) : KeepsPorts s t := by
  unfold step at h
  split at h
  · cases h
    exact PortsMove.keeps ((elapse_move s 1).same rfl)
  · rename_i c rest _
    have hrest : PortsMove s { s with pending := rest } := .of_ports rfl
    have hexec := exec_keepsPorts h
    exact ⟨hexec.ports ∘ hrest.agrees, hexec.fill ∘ hrest.out⟩

/-- Settles O29: an event moves within the agreement (`PortsMove.agrees`), opens or ends a transaction (`portsAgree_of_opened`,
`portsAgree_of_ended`), resets, loads or provisions; and what the controller samples is answered through `answer_move`. -/
theorem everyStepKeepsThePortsInAgreement : Obligations.EveryStepKeepsThePortsInAgreement :=
  ⟨fun _ _ hs h => (step_keepsPorts h).ports hs, fun _ _ hs h => (step_keepsPorts h).fill hs⟩

end Sys2Proof.Machine
end

section
/-! PROOFS. The bytes that pass (R96 to R99, R103 to R106, R119, R171): what each event of a transaction does, by class and handling, and
with it the statements that give the exact state. -/

namespace Sys2Proof.Machine

/-! ## Select assertion -/

/-- Settles O14: one state per mode of the port. -/
theorem selectAssertOpensATransaction : Obligations.SelectAssertOpensATransaction := by
  intro s
  have hexec : exec .upstreamSelectAssert s = execUpstreamSelectAssert s := rfl
  refine ⟨fun hselect => ?_, fun hselect hmode => ?_, fun hselect hmode => ?_, fun hselect hmode => ?_⟩
  · rw [hexec, execUpstreamSelectAssert, if_pos hselect]
  · simp only [hexec, execUpstreamSelectAssert, hselect, hmode, if_neg Bool.false_ne_true]
    rfl
  · simp only [hexec, execUpstreamSelectAssert, hselect, hmode, if_neg Bool.false_ne_true]
  · simp only [hexec, execUpstreamSelectAssert, hselect, hmode, if_neg Bool.false_ne_true]

/-- On the connected lines of PASS-THROUGH what the controller drives reaches the flash (R93). -/
theorem wire_of_connected {s : State} {bs : List Byte} (hmode : s.up.mode = .passThrough) (hselect : s.up.select = true) :
    s.wire bs = s.send bs := if_pos ⟨hmode, hselect⟩

/-! ## Instruction byte -/

theorem classified_eq (x : Tx) (e : ClassEntry) :
    x.classified e = { x with entry := some e, phase := phaseAfter e.addrBytes e.dummy } := by
  have hphase : (if e.addrBytes = 0 then e.dataPhase else .address) = phaseAfter e.addrBytes e.dummy := by
    rw [dataPhase_eq, phaseAfter, ite_not, ite_not]
  rw [Tx.classified, hphase]

/-- The verifier is idle while nothing waits and no context is held (R133). -/
theorem verifierIdle_iff (s : State) : s.verifierIdle = true ↔ s.queue = [] ∧ ∀ c : Fin 4, s.ctx c = none := by
  simp [State.verifierIdle]

/-- A whole instruction byte is taken by the class of its entry (R97). -/
theorem exec_instructionByte {b : Byte} {s : State} {x : Tx} (htx : s.up.tx = some x) (hphase : x.phase = .instruction) :
    exec (.instructionByteComplete b) s = .next (s.classify (x.classified (s.entry b)) b (s.entry b)) := by
  show execInstructionByteComplete b s = _
  simp only [execInstructionByteComplete, htx, if_pos hphase]

/-- The instruction bytes that are passed on whole (R97, R103, R119). -/
def State.passesInstruction (s : State) (e : ClassEntry) : Prop :=
  e.cls ∈ [TxClass.read, .program, .eraseSector, .eraseBlock, .writeEnable, .writeDisable, .statusRead, .wake, .resume, .plain]
    ∨ (e.cls = .sleep ∧ s.queue = [] ∧ ∀ c : Fin 4, s.ctx c = none)
    ∨ (e.cls = .statusWrite ∧ s.cfg.statusAllow = true)

theorem classify_of_passes {s : State} {e : ClassEntry} (x : Tx) (b : Byte) (h : s.passesInstruction e) :
    s.classify x b e = s.forward x e [b] := by
  obtain hmem | ⟨hsleep, hidle⟩ | ⟨hstatus, hallow⟩ := h
  · cases hcls : e.cls with
    | eraseChip | statusWrite | sleep | service | barred => simp [hcls] at hmem
    | _ => simp only [State.classify, hcls]
  · simp only [State.classify, hsleep, if_pos ((verifierIdle_iff s).mpr hidle)]
  · simp only [State.classify, hstatus, if_pos hallow]

/-- Settles O15: by the class of the instruction byte, with what its refusal records. -/
theorem anInstructionByteIsPassedOnOrCut : Obligations.AnInstructionByteIsPassedOnOrCut := by
  refine ⟨?_, ?_, ?_⟩
  · rintro b s x e htx hphase rfl hpasses
    rw [exec_instructionByte htx hphase, classify_of_passes _ b hpasses, classified_eq]
    rfl
  · rintro b s x e htx hphase rfl
    refine ⟨_, exec_instructionByte htx hphase, fun hcls => ?_, fun hcls hbusy => ?_, fun hcls => ?_, fun hcls hno => ?_⟩ <;>
      rw [classified_eq]
    · simp only [State.classify, hcls]
      rfl
    · have hwork : ¬ s.verifierIdle = true := mt (verifierIdle_iff s).mp hbusy
      simp only [State.classify, hcls, if_neg hwork]
      rfl
    · simp only [State.classify, hcls]
      rfl
    · have hrefused : ¬ s.cfg.statusAllow = true := Bool.eq_false_iff.mp hno
      simp only [State.classify, hcls, if_neg hrefused]
      rfl
  · intro b s htx hmode hselect
    have hexec : execInstructionByteComplete b s = .next (s.wire [b]) := by simp only [execInstructionByteComplete, htx]
    rw [wire_of_connected hmode hselect] at hexec
    exact hexec

/-! ## Address and dummy clocks -/

/-- Settles O19: the address of a class that is not translated, the count of the dummy clocks, and the address on connected lines. -/
theorem otherAddressesAndDummyClocksPass : Obligations.OtherAddressesAndDummyClocksPass := by
  refine ⟨?_, ?_, ?_⟩
  · intro a s x e htx hphase hentry hclass
    have haddress : s.address (x.addressed e a) e a
        = (s.setTx (some (x.addressed e a))).send (beBytes e.addrBytes (addressField e.addrBytes a)) := by
      cases hcls : e.cls with
      | read | program | eraseSector | eraseBlock => simp [hcls] at hclass
      | _ => simp only [State.address, hcls]
    have hexec : execAddressComplete a s = .next (s.address (x.addressed e a) e a) := by
      simp only [execAddressComplete, htx, hphase, hentry]
    rw [haddress] at hexec
    rw [← dataPhase_eq]
    exact hexec
  · intro s x htx hphase
    exact (show execDummyCountComplete s = .next (s.setTx (some { x with phase := .data })) by
      simp only [execDummyCountComplete, htx, if_pos hphase])
  · intro a s htx hmode hselect
    have hexec : execAddressComplete a s = .next (s.wire (beBytes 4 a.toNat)) := by simp only [execAddressComplete, htx]
    rw [wire_of_connected hmode hselect] at hexec
    exact hexec

/-! ## Data bytes outside the gate -/

/-- Of a truncated transaction a data byte is only counted, unless its instruction was the service byte or BARRED (R103). -/
theorem dataByte_of_truncated {s : State} {x : Tx} {e : ClassEntry} (b : Byte) (hservice : e.cls ≠ .service) (hbarred : e.cls ≠ .barred)
    (hcut : x.handling = .truncated) : s.dataByte x e b = s.setTx (some { x with k := x.k + 1 }) := by
  cases hcls : e.cls with
  | service => exact absurd hcls hservice
  | barred => exact absurd hcls hbarred
  | _ => simp only [State.dataByte, hcls, hcut]

/-- The data bytes of a relayed write go to the flash as they come (R99). -/
theorem dataByte_of_write {s : State} {x : Tx} {e : ClassEntry} (b : Byte) (hcls : e.cls ∈ [TxClass.program, .statusWrite])
    (hrelay : x.handling = .relay) : s.dataByte x e b = (s.setTx (some { x with k := x.k + 1 })).send [b] := by
  simp only [List.mem_cons, List.not_mem_nil, or_false] at hcls
  obtain hcls | hcls := hcls <;> simp only [State.dataByte, hcls, hrelay]

/-- A byte of a relayed STATUS_READ is sampled; the first is snooped (R99, R127). -/
theorem dataByte_of_statusRead {s : State} {x : Tx} {e : ClassEntry} (b : Byte) (hcls : e.cls = .statusRead)
    (hrelay : x.handling = .relay) : s.dataByte x e b = if x.k = 0 then (s.shown x b).snoop b else s.shown x b := by
  simp only [State.dataByte, State.shown, hcls, hrelay]

/-- Settles O24: by mode, and in RELAYING mode by class and handling. -/
theorem dataBytesOutsideTheGatePassUnchanged : Obligations.DataBytesOutsideTheGatePassUnchanged := by
  refine ⟨fun b s => ⟨fun hmode hselect => ?_, fun hmode hselect => ?_, ?_⟩, ?_, ?_⟩
  · exact (show execUpstreamDataByte b s = .next (s.answer 0xFF (.fill .halted)) by
      simp only [execUpstreamDataByte, hmode, if_pos hselect])
  · have hexec : execUpstreamDataByte b s = .next ((s.wire [b]).answer b .flash) := by
      simp only [execUpstreamDataByte, hmode, if_pos hselect]
    rw [wire_of_connected hmode hselect] at hexec
    exact hexec
  · intro x e hmode htx hphase hentry
    rw [exec_dataByte b hmode htx hphase hentry]
    refine ⟨fun hcls hrelay => ?_, fun hcls habsent => ?_, fun hcls hrelay => ?_, fun hservice hbarred hcut => ?_⟩
    · simp only [State.dataByte, hcls, hrelay]
      rfl
    · rw [dataByte_noFlash b hcls habsent]
      rfl
    · rw [dataByte_of_write b hcls hrelay]
      rfl
    · rw [dataByte_of_truncated b hservice hbarred hcut]
      rfl
  · intro b s x e hmode htx hphase hentry hcls hrelay busy up
    rw [exec_dataByte b hmode htx hphase hentry, dataByte_of_statusRead b hcls hrelay]
    refine ⟨fun ⟨hfirst, hawake⟩ => ?_, fun hnot => ?_⟩
    · have hsnoop : (s.shown x b).snoop b = (s.shown x b).readStatus b := if_pos hawake
      rw [if_pos hfirst, hsnoop]
      rfl
    · have hstands : (if x.k = 0 then (s.shown x b).snoop b else s.shown x b) = s.shown x b := by
        split
        · rename_i hfirst
          exact if_neg fun hawake => hnot ⟨hfirst, hawake⟩
        · rfl
      rw [hstands]
      rfl
  · intro b s x e hmode htx hphase hentry hcls
    rw [exec_dataByte b hmode htx hphase hentry]
    simp only [State.dataByte, hcls]
    rfl

/-! ## The bytes of a service transaction -/

theorem carriesArgument_iff (code : Byte) : carriesArgument code = true ↔ code ∈ [(0x03 : Byte), 0x04, 0x06, 0x07] := by
  simp [carriesArgument, or_assoc]

section
variable {s : State} {x : Tx} {e : ClassEntry}

theorem dataByte_of_service (b : Byte) (hcls : e.cls = .service) : s.dataByte x e b = s.serviceByte x e b := by
  simp only [State.dataByte, hcls]

/-- The byte that is the tag makes the transaction the part's own (R105). -/
theorem serviceByte_of_tag (hwait : x.handling = .serviceWait) :
    s.serviceByte x e s.cfg.tag = s.setTx (some { x with k := x.k + 1, handling := .consumed }) := by
  simp only [State.serviceByte, hwait, if_true]

/-- Any other byte is passed on behind the service byte (R105). -/
theorem serviceByte_of_mismatch {b : Byte} (hwait : x.handling = .serviceWait) (hb : b ≠ s.cfg.tag) :
    s.serviceByte x e b
      = { s with
          up := { s.up with tx := some { x with k := x.k + 1, handling := .relay, flashSide := .running } }
          fp := { s.fp with select := true, sent := [s.cfg.serviceByte, b], shape := some e } } := by
  simp only [State.serviceByte, hwait, if_neg hb]
  rfl

theorem serviceByte_of_relay (b : Byte) (hrelay : x.handling = .relay) :
    s.serviceByte x e b = ((s.setTx (some { x with k := x.k + 1 })).send [b]).answer 0xFF .high := by
  simp only [State.serviceByte, hrelay]

variable (hown : x.handling = .consumed)
include hown

/-- The request code is kept (R106). -/
theorem serviceByte_of_code (b : Byte) (hservice : x.service = []) :
    s.serviceByte x e b = s.setTx (some { x with k := x.k + 1, service := [b] }) := by
  simp only [State.serviceByte, hown, hservice]

/-- So is the argument of a code that carries one (R106, R163). -/
theorem serviceByte_of_argument (b : Byte) {code : Byte} (hservice : x.service = [code])
    (hcode : code ∈ [(0x03 : Byte), 0x04, 0x06, 0x07]) :
    s.serviceByte x e b = s.setTx (some { x with k := x.k + 1, service := [code, b] }) := by
  have hno : code ≠ fetchCode := by
    rintro rfl
    revert hcode
    decide
  simp only [State.serviceByte, hown, hservice, if_neg hno, if_pos ((carriesArgument_iff code).mpr hcode)]

/-- Behind the request, whole, the lines are high (R106). -/
theorem serviceByte_of_rest (b : Byte)
    (hrest : (∃ code, x.service = [code] ∧ code ∉ [(0x03 : Byte), 0x04, 0x06, 0x07, 0x0A]) ∨ 2 ≤ x.service.length) :
    s.serviceByte x e b = (s.setTx (some { x with k := x.k + 1 })).answer 0xFF .high := by
  obtain ⟨code, hservice, hcode⟩ | hlong := hrest
  · have hno : code ≠ fetchCode := by
      rintro rfl
      revert hcode
      decide
    have hnone : ¬ carriesArgument code = true := by
      rw [carriesArgument_iff]
      exact fun h => hcode (List.mem_append_left [0x0A] h)
    simp only [State.serviceByte, hown, hservice, if_neg hno, if_neg hnone]
  · match hservice : x.service with
    | [] => simp [hservice] at hlong
    | [_] => simp [hservice] at hlong
    | _ :: _ :: _ => simp only [State.serviceByte, hown, hservice]

/-- Byte `n` of the response is driven behind the code of FETCH (R171). -/
theorem serviceByte_of_fetch (b : Byte) {n : Nat} (hservice : x.service = [0x0A]) (hk : x.k = n + 2) :
    s.serviceByte x e b
      = { s with
          up := { s.up with tx := some { x with k := n + 3 }, out := some ⟨s.fetchByte n, .response⟩ }
          response := s.response.map fun q => if n = q.body.length then { q with fetched := true } else q } := by
  have hbyte : x.k - 2 = n := by omega
  have hnext : x.k + 1 = n + 3 := by omega
  have hcode : (0x0A : Byte) = fetchCode := rfl
  simp only [State.serviceByte, hown, hservice, if_pos hcode, hbyte, hnext]
  rfl

end

/-- A listening part takes FETCH as the recognition of its code (log 8). -/
theorem exec_fetch_of_listening {s : State} (h : s.Listening) :
    exec .fetch s = .next
      { s with up := ⟨true, .relaying, some s.fetchTx, none⟩, fp := { s.fp.toRelay with select := false } } := by
  obtain ⟨hup, -⟩ := h
  have htx : s.up.tx = none := by rw [hup]
  have hmode : s.up.mode = .relaying := by rw [hup]
  have hlisten : s.up.mode = .relaying ∧ s.up.select = false := ⟨hmode, by rw [hup]⟩
  show execFetch s = _
  simp only [execFetch, htx, if_pos hlisten]
  rw [hmode]

/-- Settles O25: by the handling of the transaction and the bytes that it has carried. -/
theorem serviceBytesAreTakenAndTheResponseDriven : Obligations.ServiceBytesAreTakenAndTheResponseDriven := by
  refine ⟨?_, ⟨fun s hlisten => exec_fetch_of_listening hlisten, ?_⟩, ?_⟩
  · intro b s x e hmode htx hphase hentry hcls
    rw [exec_dataByte b hmode htx hphase hentry, dataByte_of_service b hcls]
    refine ⟨?_, fun hwait hb => ?_, fun hown hservice => ?_, fun code hown hservice hcode => ?_⟩
    · rintro hwait rfl
      rw [serviceByte_of_tag hwait]
      rfl
    · rw [serviceByte_of_mismatch hwait hb]
    · rw [serviceByte_of_code hown b hservice]
      rfl
    · rw [serviceByte_of_argument hown b hservice hcode]
      rfl
  · intro b s x e n hmode htx hphase hentry hcls hown hservice hk up
    rw [exec_dataByte b hmode htx hphase hentry, dataByte_of_service b hcls, serviceByte_of_fetch hown b hservice hk]
    refine ⟨fun hnone => ?_, fun q hq => ⟨fun hn hbody => ?_, fun v hn hv => ?_, fun hpast => ?_⟩⟩
    · simp only [up, State.fetchByte, hnone, Option.map_none]
    · subst hn
      have hsome : ¬ 0 = q.body.length := fun h => hbody (List.eq_nil_of_length_eq_zero h.symm)
      simp only [up, State.fetchByte, hq, Option.map_some, if_neg hsome, if_true, natByte]
    · have hbyte : s.fetchByte n = v := by simp [State.fetchByte, hq, hn, hv]
      have hlast : (if n = q.body.length then { q with fetched := true } else q)
          = { q with fetched := q.fetched || decide (n = q.body.length) } := by
        split <;> simp_all
      rw [hbyte, hq, Option.map_some, hlast]
    · have hn : n ≠ 0 := by omega
      have hbyte : s.fetchByte n = 0xFF := by
        have hout : q.body.length ≤ n - 1 := by omega
        simp [State.fetchByte, hq, hn, List.getElem?_eq_none hout]
      have hlength : ¬ n = q.body.length := by omega
      rw [hbyte, hq, Option.map_some, if_neg hlength, ← hq]
  · intro b s x e hmode htx hphase hentry hcls up
    rw [exec_dataByte b hmode htx hphase hentry, dataByte_of_service b hcls]
    refine ⟨fun hown hrest => ?_, fun hrelay => ?_⟩
    · rw [serviceByte_of_rest hown b hrest]
      rfl
    · rw [serviceByte_of_relay b hrelay]
      rfl

end Sys2Proof.Machine
end

section
/-! PROOFS. What cannot happen in the present state changes nothing (log 1): the last arm of each event. -/

namespace Sys2Proof.Machine

/-! ## Completions and expiries of what is not in progress -/

theorem execBootstrapReadComplete_of_not {s : State} {image : List Byte} (h : s.prov ≠ .reading ∨ image.length ≠ 4096) :
    execBootstrapReadComplete image s = .next s := if_neg (not_and_or.mpr h)

theorem execProvisionCellBurnComplete_of_not {s : State} (h : ∀ want cell r, s.prov ≠ .burning want cell r) :
    execProvisionCellBurnComplete s = .next s := by
  unfold execProvisionCellBurnComplete
  split
  · rename_i hprov
    exact absurd hprov (h _ _ _)
  · rfl
  · rfl

theorem execBurstByteReceived_of_not {s : State} (b : Byte) (h : ∀ c n, s.fp.holder ≠ .own (.burst c n)) :
    execBurstByteReceived b s = .next s := by
  unfold execBurstByteReceived
  split
  · rename_i hholder
    exact absurd hholder (h _ _)
  · rfl

theorem execHoldPulseExpiry_of_not {s : State} (h : ∀ r, s.pulse ≠ .running r) : execHoldPulseExpiry s = .next s := by
  unfold execHoldPulseExpiry
  split
  · rename_i hpulse
    exact absurd hpulse (h _)
  · rfl
  · rfl

theorem execWakeComplete_of_not {s : State} (h : ∀ f, s.fp.holder ≠ .own (.wake f)) : execWakeComplete s = .next s := by
  unfold execWakeComplete
  split
  · rename_i hholder
    exact absurd hholder (h _)
  · rfl

theorem execStatusPollComplete_of_not {s : State} (b : Byte) (h : s.fp.holder ≠ .own .poll) : execStatusPollComplete b s = .next s := by
  unfold execStatusPollComplete
  split
  · rename_i hholder
    exact absurd hholder h
  · rfl

theorem execWriteDisableComplete_of_not {s : State} (h : s.fp.holder ≠ .own .writeDisable) :
    execWriteDisableComplete s = .next s := by
  unfold execWriteDisableComplete
  split
  · rename_i hholder
    exact absurd hholder h
  · rfl

theorem execSleepComplete_of_not {s : State} (h : s.fp.holder ≠ .own .sleep) : execSleepComplete s = .next s := by
  unfold execSleepComplete
  split
  · rename_i hholder
    exact absurd hholder h
  · rfl

theorem execFloorCellComplete_of_not {s : State} (h : ∀ k target r, s.keys.burn ≠ some ⟨.floor k target, r⟩) :
    execFloorCellComplete s = .next s := by
  unfold execFloorCellComplete
  split
  · rename_i hburn
    exact absurd hburn (h _ _ _)
  · rfl

theorem execRevokeCellComplete_of_not {s : State} (h : ∀ slot r, s.keys.burn ≠ some ⟨.revoke slot, r⟩) :
    execRevokeCellComplete s = .next s := by
  unfold execRevokeCellComplete
  split
  · rename_i hburn
    exact absurd hburn (h _ _)
  · rfl

/-! ## Bytes of a phase the transaction is not in -/

/-- No line is connected, or no select asserted: what the controller drives reaches nothing. -/
theorem wire_of_unconnected {s : State} (bs : List Byte) (h : s.up.mode ≠ .passThrough ∨ s.up.select = false) : s.wire bs = s := by
  refine if_neg fun ⟨hmode, hselect⟩ => ?_
  obtain hmode' | hselect' := h
  · exact hmode' hmode
  · simp [hselect'] at hselect

section
variable {s : State}

theorem execInstructionByteComplete_of_not (b : Byte) (h : ∀ x, s.up.tx = some x → x.phase ≠ .instruction)
    (hidle : s.up.tx = none → s.up.mode ≠ .passThrough ∨ s.up.select = false) : execInstructionByteComplete b s = .next s := by
  unfold execInstructionByteComplete
  split
  · rename_i x htx
    exact if_neg (h x htx)
  · rename_i htx
    rw [wire_of_unconnected _ (hidle htx)]

theorem execAddressComplete_of_not (a : BitVec 32) (h : ∀ x, s.up.tx = some x → x.phase ≠ .address)
    (hidle : s.up.tx = none → s.up.mode ≠ .passThrough ∨ s.up.select = false) : execAddressComplete a s = .next s := by
  unfold execAddressComplete
  split
  · rename_i x htx
    split
    · rename_i hphase _
      exact absurd hphase (h x htx)
    · rfl
  · rename_i htx
    rw [wire_of_unconnected _ (hidle htx)]

theorem execDummyCountComplete_of_not (h : ∀ x, s.up.tx = some x → x.phase ≠ .dummy) : execDummyCountComplete s = .next s := by
  unfold execDummyCountComplete
  split
  · rename_i x htx
    exact if_neg (h x htx)
  · rfl

theorem execUpstreamDataByte_of_not_data (b : Byte) (hmode : s.up.mode = .relaying) (h : ∀ x, s.up.tx = some x → x.phase ≠ .data) :
    execUpstreamDataByte b s = .next s := by
  simp only [execUpstreamDataByte, hmode]
  split
  · rename_i x htx
    split
    · rename_i hphase _
      exact absurd hphase (h x htx)
    · rfl
  · rfl

theorem execUpstreamDataByte_of_deselected (b : Byte) (hmode : s.up.mode ≠ .relaying) (hselect : s.up.select = false) :
    execUpstreamDataByte b s = .next s := by
  cases h : s.up.mode with
  | relaying => exact absurd h hmode
  | detached | passThrough => simp only [execUpstreamDataByte, h, hselect, if_neg Bool.false_ne_true]

/-! ## Requests that the port cannot carry -/

/-- The port carries no request: it does not wait for a transaction, or the one in progress is not the part's own (R105, R106). -/
def State.CarriesNoRequest (s : State) : Prop :=
  (s.up.tx = none ∧ (s.up.mode ≠ .relaying ∨ s.up.select = true)) ∨ ∃ x, s.up.tx = some x ∧ x.handling ≠ .consumed

theorem not_listening {s : State} (h : s.up.mode ≠ .relaying ∨ s.up.select = true) :
    ¬ (s.up.mode = .relaying ∧ s.up.select = false) := by
  rintro ⟨hmode, hselect⟩
  obtain hmode' | hselect' := h
  · exact hmode' hmode
  · simp [hselect] at hselect'

theorem request_of_not_carried (bytes : List Byte) (h : s.CarriesNoRequest) : s.request bytes = s := by
  obtain ⟨htx, hport⟩ | ⟨x, htx, hother⟩ := h
  · simp only [State.request, htx, if_neg (not_listening hport)]
  · simp only [State.request, htx, if_neg fun hown : x.handling = .consumed ∧ x.service = bytes => hother hown.1]

theorem execFetch_of_not_carried (h : s.CarriesNoRequest) : execFetch s = .next s := by
  obtain ⟨htx, hport⟩ | ⟨x, htx, hother⟩ := h
  · simp only [execFetch, htx, if_neg (not_listening hport)]
  · simp only [execFetch, htx]
    split
    · rename_i hown _
      exact absurd hown hother
    · rfl

theorem execUnknownRequest_of_not_carried (code : Byte) (h : s.CarriesNoRequest) : execUnknownRequest code s = .next s := by
  unfold execUnknownRequest
  split
  · rfl
  · rw [request_of_not_carried _ h]

end

/-- Settles O4: event by event, the arm in which it does not happen. -/
theorem anImpossibleEventChangesNothing : Obligations.AnImpossibleEventChangesNothing := by
  intro s idle
  refine ⟨fun h => ?_, fun _ h => execBootstrapReadComplete_of_not h, execProvisionCellBurnComplete_of_not,
    fun h hidle b => execInstructionByteComplete_of_not b h hidle, fun h hidle a => execAddressComplete_of_not a h hidle,
    execDummyCountComplete_of_not, fun hmode h b => execUpstreamDataByte_of_not_data b hmode h,
    fun hmode hselect b => execUpstreamDataByte_of_deselected b hmode hselect, fun h b => execBurstByteReceived_of_not b h,
    fun h => ?_, fun h => ?_, execHoldPulseExpiry_of_not, execWakeComplete_of_not, fun h => ?_,
    fun h b => execStatusPollComplete_of_not b h, fun h => ?_, execWriteDisableComplete_of_not, execSleepComplete_of_not,
    execFloorCellComplete_of_not, execRevokeCellComplete_of_not, fun hno c hc => ?_⟩
  · exact (show execLoadComplete s = .next s by simp only [execLoadComplete, h])
  · exact (show execSignatureCheckComplete s = .next s by simp only [execSignatureCheckComplete, h])
  · exact (show execDeadlineExpiry s = .next s by simp only [execDeadlineExpiry, h])
  · exact (show execWakeWaitEnd s = .next s by simp only [execWakeWaitEnd, h])
  · exact (show execPollWaitEnd s = .next s by simp only [execPollWaitEnd, h])
  · have hrequest (bytes : List Byte) : Host.Outcome.next (s.request bytes) = (.next s : Result) :=
      congrArg Host.Outcome.next (request_of_not_carried bytes hno)
    simp only [List.mem_cons, List.not_mem_nil, or_false] at hc
    obtain (rfl | rfl | rfl | rfl) | ⟨b, rfl | rfl | rfl | rfl | rfl⟩ := hc
    case inl.inr.inr.inr => exact execFetch_of_not_carried hno
    case inr.inr.inr.inr.inr => exact execUnknownRequest_of_not_carried b hno
    all_goals exact hrequest _

end Sys2Proof.Machine
end

section
/-! PROOFS. Select rise (R86, R94, R100 to R102, R106, R127, R134): the judgement, what it changes of the shadow, and the end of the
transaction; and the requests that a service transaction carries to it (logs 7, 8). -/

namespace Sys2Proof.Machine

/-! ## The judgement -/

theorem atBoundary_iff (x : Tx) : x.atBoundary = true ↔ x.clocks = 0 ∧ x.phase ≠ .dummy := by
  simp [Tx.atBoundary]

/-- The first three conditions of acceptance (R101). -/
theorem framed_iff {x : Tx} {e : ClassEntry} (hentry : x.entry = some e) : x.framed = true ↔
    (x.clocks = 0 ∧ x.phase ≠ .dummy) ∧ x.received = e.addrBytes ∧ (e.cls = .program → 0 < x.k) := by
  simp [Tx.framed, atBoundary_iff, hentry, imp_iff_not_or]

theorem accepted_iff (x : Tx) : x.accepted = true ↔ x.framed = true ∧ x.handling = .relay := by
  simp [Tx.accepted]

section
variable {s : State} {x : Tx}

/-- Within an instruction byte nothing is judged (R100). -/
theorem judgeRise_of_no_instruction (hentry : x.entry = none) : s.judgeRise x = s := by
  simp only [State.judgeRise, hentry]

/-- What is not framed changes nothing (R101, R103). -/
theorem judgeRise_of_unframed (hframed : x.framed = false) : s.judgeRise x = s := by
  have haccepted : x.accepted = false := by simp [Tx.accepted, hframed]
  unfold State.judgeRise
  split
  · rfl
  · rw [haccepted, hframed, if_neg Bool.false_ne_true, if_neg (by simp)]

/-- What is neither relayed nor truncated changes nothing (R101). -/
theorem judgeRise_of_other (hrelay : x.handling ≠ .relay) (hcut : x.handling ≠ .truncated) : s.judgeRise x = s := by
  unfold State.judgeRise
  split
  · rfl
  · rw [if_neg fun h => hrelay ((accepted_iff x).mp h).2, if_neg fun h => hcut h.2.2]

variable {e : ClassEntry} (hentry : x.entry = some e)
include hentry

/-- A truncated transaction of any class but SLEEP changes nothing (R103). -/
theorem judgeRise_of_truncated (hcut : x.handling = .truncated) (hcls : e.cls ≠ .sleep) : s.judgeRise x = s := by
  have haccepted : ¬ x.accepted = true := by simp [Tx.accepted, hcut]
  have hsleep : ¬ (e.cls = .sleep ∧ x.framed = true ∧ x.handling = .truncated) := fun h => hcls h.1
  simp only [State.judgeRise, hentry, if_neg haccepted, if_neg hsleep]

/-- A truncated SLEEP that is framed sets sleep pending (R103). -/
theorem judgeRise_of_sleep (hframed : x.framed = true) (hcut : x.handling = .truncated) (hcls : e.cls = .sleep) :
    s.judgeRise x = s.modShadow fun sh => { sh with sleepPending := true } := by
  have haccepted : ¬ x.accepted = true := by simp [Tx.accepted, hcut]
  have hsleep : e.cls = .sleep ∧ x.framed = true ∧ x.handling = .truncated := ⟨hcls, hframed, hcut⟩
  simp only [State.judgeRise, hentry, if_neg haccepted, if_pos hsleep]

/-- The classes that read, and the service transaction passed on, change nothing (R102). -/
theorem judgeRise_of_reading (hcls : e.cls ∈ [TxClass.read, .statusRead, .plain, .service]) : s.judgeRise x = s := by
  have haccept : s.accept x e.cls = s := by
    simp only [List.mem_cons, List.not_mem_nil, or_false] at hcls
    obtain h | h | h | h := hcls <;> rw [h] <;> rfl
  have hsleep : ¬ (e.cls = .sleep ∧ x.framed = true ∧ x.handling = .truncated) := fun h => by simp [h.1] at hcls
  simp only [State.judgeRise, hentry, haccept, if_neg hsleep, ite_self]

end

/-- The shadow that an accepted transaction of class `cls` leaves, where it changes nothing else (R102). -/
def State.Signals (s : State) (cls : TxClass) (sh : Shadow) : Prop :=
  (cls = .writeEnable ∧ sh = { s.fp.shadow with writeEnable := .set, wdPending := false })
    ∨ (cls = .writeDisable ∧ sh = { s.fp.shadow with writeEnable := .clear })
    ∨ (cls = .wake ∧ sh = { s.fp.shadow with power := .awake, sleepPending := false })
    ∨ (cls = .resume ∧ sh = { s.fp.shadow with busy := .busy })
    ∨ (cls = .sleep ∧ sh = { s.fp.shadow with power := .asleep, sleepPending := false })

theorem accept_of_signals {s : State} {cls : TxClass} {sh : Shadow} (x : Tx) (h : s.Signals cls sh) :
    s.accept x cls = s.modShadow fun _ => sh := by
  obtain ⟨rfl, rfl⟩ | ⟨rfl, rfl⟩ | ⟨rfl, rfl⟩ | ⟨rfl, rfl⟩ | ⟨rfl, rfl⟩ := h <;> rfl

theorem signals_not_program {s : State} {cls : TxClass} {sh : Shadow} (h : s.Signals cls sh) : cls ≠ .program := by
  obtain ⟨rfl, -⟩ | ⟨rfl, -⟩ | ⟨rfl, -⟩ | ⟨rfl, -⟩ | ⟨rfl, -⟩ := h <;> simp

/-! ## The end of the transaction -/

theorem handCauses_tallied (s : State) (x : Tx) : s.handCauses x = { s with report := s.tallied x } := by
  unfold State.handCauses State.tallied
  split <;> rfl

/-- Its judgement having changed the shadow alone, the transaction ends so (R86, R94, R100, R134). -/
theorem ended_of_shadow (s : State) (x : Tx) (sh : Shadow) : ((s.modShadow fun _ => sh).handCauses x).endTx = s.ended x sh := by
  rw [handCauses_tallied, State.endTx, settleMode_eq]
  rfl

/-- The transaction hands on no request: it is not the part's own, off a byte boundary, or its bytes are no whole request (R106). -/
def Tx.handsNothing (x : Tx) : Prop := x.handling ≠ .consumed ∨ x.atBoundary = false ∨ requestOf x.service = none

theorem handRequest_of_nothing {x : Tx} (s : State) (h : x.handsNothing) : s.handRequest x = s := by
  unfold State.handRequest
  split
  · rename_i hown
    obtain ⟨hconsumed, hboundary⟩ := hown
    obtain h | h | h := h
    · exact absurd hconsumed h
    · simp [h] at hboundary
    · simp only [State.takeBytes, h]
  · rfl

/-- Select rise ends the transaction in progress, with the clocks then into a byte (R100). -/
theorem exec_rise {s : State} {x : Tx} (clocks : Fin 8) (hselect : s.up.select = true) (htx : s.up.tx = some x) :
    exec (.upstreamSelectRise clocks) s = .next (s.rise { x with clocks }) := by
  show execUpstreamSelectRise clocks s = _
  simp only [execUpstreamSelectRise, if_pos hselect, htx]

section
variable {s : State} {x : Tx} {clocks : Fin 8} (hselect : s.up.select = true) (htx : s.up.tx = some x)
include hselect htx

/-- The rise of a transaction that changes the shadow alone and hands on no request. -/
theorem exec_rise_of_shadow {sh : Shadow} (hjudge : s.judgeRise { x with clocks } = s.modShadow fun _ => sh)
    (hno : ({ x with clocks } : Tx).handsNothing) : exec (.upstreamSelectRise clocks) s = .next (s.ended x sh).arbitrate := by
  rw [exec_rise clocks hselect htx, State.rise, handRequest_of_nothing _ hno, hjudge, ended_of_shadow]
  rfl

/-- The rise of a transaction whose judgement changes nothing, and that hands on no request. -/
theorem exec_rise_of_nothing (hjudge : s.judgeRise { x with clocks } = s) (hno : ({ x with clocks } : Tx).handsNothing) :
    exec (.upstreamSelectRise clocks) s = .next (s.ended x s.fp.shadow).arbitrate :=
  exec_rise_of_shadow hselect htx (by exact hjudge) hno

end

/-- The bytes that are no whole request: none, or a code alone that carries an argument or is that of FETCH (R106, R163). -/
theorem requestOf_of_short {bytes : List Byte}
    (h : bytes = [] ∨ ∃ code, bytes = [code] ∧ code ∈ [(0x03 : Byte), 0x04, 0x06, 0x07, 0x0A]) : requestOf bytes = none := by
  obtain rfl | ⟨code, rfl, hcode⟩ := h
  · rfl
  · simp only [List.mem_cons, List.not_mem_nil, or_false] at hcode
    obtain rfl | rfl | rfl | rfl | rfl := hcode <;> rfl

/-- Settles O26: disjunct by disjunct, what the judgement leaves of the shadow and that no request is handed on; then the rise without a
transaction, by the mode. -/
theorem selectRiseJudgesAndEndsTheTransaction : Obligations.SelectRiseJudgesAndEndsTheTransaction := by
  refine ⟨?_, fun clocks s => ⟨fun hselect => ?_, fun x hselect htx hentry hother => ?_, fun hselect htx hmode => ?_,
    fun hselect htx hmode => ?_⟩⟩
  · intro clocks s x e sh hselect htx hentry whole framed hcases
    have hframed := framed_iff (x := { x with clocks }) hentry
    obtain ⟨⟨hwhole, hreceived⟩, hrelay, hsignals⟩ | ⟨⟨hwhole, hreceived⟩, hcut, hcls, rfl⟩ | ⟨hnot, hother, rfl⟩
      | ⟨hcut, hcls, rfl⟩ | ⟨hcls, hempty, hother, rfl⟩ | ⟨hcls, hother, rfl⟩ | ⟨hcls, hhandling, rfl⟩ | ⟨hown, rfl, hrequest⟩ := hcases
    · have haccepted := (accepted_iff { x with clocks }).mpr
        ⟨hframed.mpr ⟨hwhole, hreceived, fun hp => absurd hp (signals_not_program hsignals)⟩, hrelay⟩
      exact exec_rise_of_shadow hselect htx ((judgeRise_of_accepted (x := { x with clocks }) hentry haccepted).trans
        (accept_of_signals _ hsignals)) (.inl (by simp [hrelay]))
    · have hsleep := judgeRise_of_sleep (s := s) (x := { x with clocks }) hentry
        (hframed.mpr ⟨hwhole, hreceived, fun hp => by simp [hcls] at hp⟩) hcut hcls
      exact exec_rise_of_shadow hselect htx hsleep (.inl (by simp [hcut]))
    · refine exec_rise_of_nothing hselect htx (judgeRise_of_unframed (Bool.eq_false_iff.mpr fun h => hnot ?_)) (.inl hother)
      obtain ⟨hwhole, hreceived, -⟩ := hframed.mp h
      exact ⟨hwhole, hreceived⟩
    · exact exec_rise_of_nothing hselect htx (judgeRise_of_truncated (x := { x with clocks }) hentry hcut hcls)
        (.inl (by simp [hcut]))
    · refine exec_rise_of_nothing hselect htx (judgeRise_of_unframed (Bool.eq_false_iff.mpr fun h => ?_)) (.inl hother)
      obtain ⟨-, -, hdata⟩ := hframed.mp h
      exact (hdata hcls).ne' hempty
    · have hreads : e.cls ∈ [TxClass.read, .statusRead, .plain, .service] := List.mem_append_left [TxClass.service] hcls
      exact exec_rise_of_nothing hselect htx (judgeRise_of_reading (x := { x with clocks }) hentry hreads) (.inl hother)
    · have hother : x.handling ≠ .consumed := by obtain h | h := hhandling <;> simp [h]
      have hpassed : e.cls ∈ [TxClass.read, .statusRead, .plain, .service] := by simp [hcls]
      exact exec_rise_of_nothing hselect htx (judgeRise_of_reading (x := { x with clocks }) hentry hpassed) (.inl hother)
    · refine exec_rise_of_nothing hselect htx (judgeRise_of_other (by simp [hown]) (by simp [hown])) (.inr ?_)
      exact hrequest.imp (fun hnot => Bool.eq_false_iff.mpr fun h => hnot ((atBoundary_iff _).mp h)) requestOf_of_short
  · exact if_neg (Bool.eq_false_iff.mp hselect)
  · exact exec_rise_of_nothing hselect htx (judgeRise_of_no_instruction hentry) (.inl hother)
  · have hexec : execUpstreamSelectRise clocks s
        = .next ({ s with up := { s.up with select := false } }.flashSelect false).settleMode := by
      simp only [execUpstreamSelectRise, if_pos hselect, htx, hmode]
    exact hexec
  · have hexec : execUpstreamSelectRise clocks s = .next ({ s with up := { s.up with select := false } } : State).settleMode := by
      cases hm : s.up.mode with
      | passThrough => exact absurd hm hmode
      | detached | relaying => simp only [execUpstreamSelectRise, if_pos hselect, htx, hm]
    exact hexec

/-! ## An accepted write -/

/-- The shadow after an accepted, effective write (R102). -/
def Shadow.written (sh : Shadow) : Shadow := { sh with busy := .busy, writeEnable := .clear, wdPending := false }

theorem LeavesPorts.shadow {s t : State} (h : LeavesPorts s t) : t.fp.shadow = s.fp.shadow := by
  obtain ⟨hsurface, -⟩ := h
  simp only [State.surface, Prod.mk.injEq] at hsurface
  obtain ⟨-, -, -, -, -, hshadow⟩ := hsurface
  exact hshadow

theorem acceptWrite_of_clear {s : State} (x : Tx) (h : s.fp.shadow.writeEnable = .clear) : s.acceptWrite x = s := if_pos h

theorem acceptWrite_of_rangeless {s : State} {x : Tx} (h : s.fp.shadow.writeEnable ≠ .clear) (hrange : x.range = none) :
    s.acceptWrite x = s.modShadow fun _ => s.fp.shadow.written := by
  simp only [State.acceptWrite, if_neg h, hrange]
  rfl

/-- Whatever regions an effective write marks, it leaves the shadow so (R102). -/
theorem acceptWrite_shadow {s : State} (x : Tx) (h : s.fp.shadow.writeEnable ≠ .clear) :
    (s.acceptWrite x).fp.shadow = s.fp.shadow.written := by
  cases hrange : x.range with
  | none => rw [acceptWrite_of_rangeless h hrange]; rfl
  | some range =>
    have hmarked : s.acceptWrite x = (s.written.staleRange range).settle := by
      simp only [State.acceptWrite, if_neg h, hrange]
      rfl
    rw [hmarked, State.settle_fp, (staleRange_leavesPorts s.written range).shadow]
    rfl

/-- What follows the judgement of a relayed transaction leaves the shadow. -/
theorem rise_shadow {s : State} {x : Tx} (hrelay : x.handling = .relay) : (s.rise x).fp.shadow = (s.judgeRise x).fp.shadow := by
  obtain ⟨harbiter, -, -⟩ := arbitrate_fp (((s.judgeRise x).handCauses x).endTx.handRequest x)
  rw [State.rise, harbiter, handRequest_of_nothing _ (.inl (by simp [hrelay])), State.endTx, State.settleMode_fp, handCauses_eq]
  rfl

/-- Settles O27: the write is accepted, and its three ways by the shadow's write-enable and its range. -/
theorem anAcceptedWriteMarksTheFlashBusy : Obligations.AnAcceptedWriteMarksTheFlashBusy := by
  intro s x e hselect htx hentry hphase hreceived hrelay hclass hprogram
  have hno : ({ x with clocks := 0 } : Tx).handsNothing := .inl (by simp [hrelay])
  have hframed : ({ x with clocks := 0 } : Tx).framed = true :=
    (framed_iff (x := { x with clocks := 0 }) hentry).mpr ⟨⟨rfl, hphase⟩, hreceived, hprogram⟩
  have hjudge : s.judgeRise { x with clocks := 0 } = s.acceptWrite { x with clocks := 0 } := by
    rw [judgeRise_of_accepted (x := { x with clocks := 0 }) hentry ((accepted_iff _).mpr ⟨hframed, hrelay⟩)]
    simp only [List.mem_cons, List.not_mem_nil, or_false] at hclass
    obtain h | h | h | h | h := hclass <;> rw [h] <;> rfl
  refine ⟨fun hclear => ?_, fun hlatch hrange => ?_, fun hlatch => ⟨_, exec_rise 0 hselect htx, ?_⟩⟩
  · exact exec_rise_of_nothing hselect htx (hjudge.trans (acceptWrite_of_clear _ hclear)) hno
  · exact exec_rise_of_shadow hselect htx (hjudge.trans (acceptWrite_of_rangeless hlatch hrange)) hno
  · rw [rise_shadow (x := { x with clocks := 0 }) hrelay, hjudge, acceptWrite_shadow _ hlatch]
    rfl

/-! ## A request and its service transaction -/

theorem execAll_cons {c : Instr} {s t : State} (cs : List Instr) (h : exec c s = .next t) : execAll (c :: cs) s = execAll cs t := by
  simp only [execAll, h]

/-- The state of a listening part in which a service transaction has carried the tag and then these bytes (R105, R106). -/
def State.serving (s : State) (bytes : List Byte) : State :=
  { s with
    up := ⟨true, .relaying, some { s.fetchTx with k := bytes.length + 1, service := bytes }, none⟩
    fp := { s.fp.toRelay with select := false } }

section
variable {s : State}

/-- The state of a listening part once its select is asserted. -/
def State.selectAsserted (s : State) : State := { s with up := ⟨true, .relaying, some Tx.opened, none⟩, fp := s.fp.toRelay }

/-- The state of a listening part once the service byte is whole. -/
def State.awaitingTag (s : State) : State :=
  { s with
    up := ⟨true, .relaying, some { s.fetchTx with handling := .serviceWait, k := 0, service := [] }, none⟩
    fp := { s.fp.toRelay with select := false } }

theorem exec_select_of_listening (h : s.Listening) : exec .upstreamSelectAssert s = .next s.selectAsserted := by
  obtain ⟨hup, -⟩ := h
  obtain ⟨-, hopen, -, -⟩ := selectAssertOpensATransaction s
  rw [hopen (by rw [hup]) (by rw [hup]), hup]
  rfl

theorem exec_serviceByte_of_selectAsserted (hcls : (s.entry s.cfg.serviceByte).cls = .service)
    (haddr : (s.entry s.cfg.serviceByte).addrBytes = 0) (hdummy : (s.entry s.cfg.serviceByte).dummy = 0) :
    exec (.instructionByteComplete s.cfg.serviceByte) s.selectAsserted = .next s.awaitingTag := by
  obtain ⟨-, hcut, -⟩ := anInstructionByteIsPassedOnOrCut
  obtain ⟨t, hexec, hservice, -⟩ := hcut s.cfg.serviceByte s.selectAsserted Tx.opened (s.entry s.cfg.serviceByte) rfl rfl rfl
  rw [hexec, hservice hcls, haddr, hdummy]
  rfl

/-- Select assertion, service byte and tag open the part's own transaction (R105). -/
theorem execAll_opening (h : s.Listening)
    (hentry : (s.entry s.cfg.serviceByte).cls = .service ∧ (s.entry s.cfg.serviceByte).addrBytes = 0
      ∧ (s.entry s.cfg.serviceByte).dummy = 0) (cs : List Instr) :
    execAll ([.upstreamSelectAssert, .instructionByteComplete s.cfg.serviceByte, .upstreamDataByte s.cfg.tag] ++ cs) s
      = execAll cs (s.serving []) := by
  obtain ⟨hcls, haddr, hdummy⟩ := hentry
  have htag : exec (.upstreamDataByte s.cfg.tag) s.awaitingTag = .next (s.serving []) := by
    rw [exec_dataByte (s := s.awaitingTag) s.cfg.tag rfl rfl rfl rfl, dataByte_of_service _ hcls]
    exact congrArg Host.Outcome.next (serviceByte_of_tag (s := s.awaitingTag) rfl)
  exact (execAll_cons _ (exec_select_of_listening h)).trans
    ((execAll_cons _ (exec_serviceByte_of_selectAsserted hcls haddr hdummy)).trans (execAll_cons _ htag))

section
variable (hcls : (s.entry s.cfg.serviceByte).cls = .service)
include hcls

/-- The request code joins the bytes carried (R106). -/
theorem exec_code_of_serving (code : Byte) : exec (.upstreamDataByte code) (s.serving []) = .next (s.serving [code]) := by
  rw [exec_dataByte (s := s.serving []) code rfl rfl rfl rfl, dataByte_of_service _ hcls,
    serviceByte_of_code (s := s.serving []) rfl code rfl]
  rfl

/-- So does the argument of a code that carries one (R106, R163). -/
theorem exec_argument_of_serving {code : Byte} (arg : Byte) (hcode : code ∈ [(0x03 : Byte), 0x04, 0x06, 0x07]) :
    exec (.upstreamDataByte arg) (s.serving [code]) = .next (s.serving [code, arg]) := by
  rw [exec_dataByte (s := s.serving [code]) arg rfl rfl rfl rfl, dataByte_of_service _ hcls,
    serviceByte_of_argument (s := s.serving [code]) rfl arg rfl hcode]
  rfl

end

/-- An empty cause set leaves the tally (R87). -/
theorem tallied_of_no_cause {x : Tx} (h : x.causes = Causes.empty) : s.tallied x = s.report := by
  have hadd (r : Report) : ({ r with tally := r.tally.add x.causes } : Report) = r := by
    rw [h]
    rfl
  unfold State.tallied
  split
  · simp only [hadd, Option.map_id']
  · rfl

/-- Select rise at a byte boundary takes the request that was carried (R106, R164). -/
theorem exec_rise_of_serving (h : s.Listening) (bytes : List Byte) :
    exec (.upstreamSelectRise 0) (s.serving bytes) = .next (s.request bytes) := by
  rw [request_of_listening h, exec_rise (s := s.serving bytes) 0 rfl rfl, State.rise,
    judgeRise_of_other (by simp [State.fetchTx]) (by simp [State.fetchTx])]
  have hended : ((s.serving bytes).handCauses { s.fetchTx with k := bytes.length + 1, service := bytes, clocks := 0 }).endTx
      = s.served := by
    rw [handCauses_tallied, tallied_of_no_cause rfl, State.endTx, settleMode_eq]
    simp only [(mode_relaying_iff s.permit).mpr h.2, State.serving, if_neg Bool.false_ne_true]
    rfl
  rw [hended]
  rfl

end

/-- Settles O30: the transaction's bytes lead to `State.serving`, whose select rise takes the request that the command takes. -/
theorem aRequestIsItsServiceTransaction : Obligations.ARequestIsItsServiceTransaction := by
  intro s arg hlisten hentry opening
  obtain ⟨hcls, -, -⟩ := id hentry
  have hrise (bytes : List Byte) : execAll [.upstreamSelectRise 0] (s.serving bytes) = .next (s.request bytes) :=
    execAll_cons [] (exec_rise_of_serving hlisten bytes)
  have hcode (code : Byte) :
      execAll (opening ++ [.upstreamDataByte code, .upstreamSelectRise 0]) s = .next (s.request [code]) := by
    rw [execAll_opening hlisten hentry, execAll_cons _ (exec_code_of_serving hcls code), hrise]
  have hargument (code : Byte) (h : code ∈ [(0x03 : Byte), 0x04, 0x06, 0x07]) :
      execAll (opening ++ [.upstreamDataByte code, .upstreamDataByte arg, .upstreamSelectRise 0]) s = .next (s.request [code, arg]) := by
    rw [execAll_opening hlisten hentry, execAll_cons _ (exec_code_of_serving hcls code),
      execAll_cons _ (exec_argument_of_serving hcls arg h), hrise]
  refine ⟨hcode 0x01, hcode 0x02, hargument 0x03 (by simp), hargument 0x04 (by simp), hcode 0x05, hargument 0x06 (by simp),
    hargument 0x07 (by simp), ?_, fun hunknown => ?_⟩
  · rw [execAll_opening hlisten hentry, execAll_cons _ (exec_code_of_serving hcls 0x0A), exec_fetch_of_listening hlisten]
    rfl
  · have hexec : exec (.unknownRequest arg) s = .next (s.request [arg]) := if_neg (by simpa using hunknown)
    rw [hcode, hexec]

end Sys2Proof.Machine
end

section
/-! PROOFS. The write filter's judgement (R17, R18, R110 to R115, R118, R119): the state that a refusal leaves, and the two events that
judge, the instruction byte of an ERASE_CHIP and the address of a PROGRAM, ERASE_SECTOR or ERASE_BLOCK. -/

namespace Sys2Proof.Machine

/-! ## A refusal -/

/-- The state that a refusal leaves (R118, R119): of the outputs only that they are driven anew. -/
theorem refuse_eq (s : State) (x : Tx) (cls : TxClass) (address : Option Nat) (cause : RefusalCause) :
    s.refuse x cls address cause
      = { s with
          up := { s.up with tx := some { x with handling := .truncated, flashSide := .ended } }
          fp := { s.fp with select := false, shadow := { s.fp.shadow with wdPending := true } }
          violation := ⟨countUp s.violation.count, some ⟨cls, address, cause⟩⟩
          alerts := { s.alerts with violation := true }
          pulse := (s.refuse x cls address cause).pulse, pins := (s.refuse x cls address cause).pins } := rfl

/-! ## ERASE_CHIP -/

/-- The range of an ERASE_CHIP, the whole flash, is locked exactly when a byte of the flash is protected (R115). -/
theorem wholeFlashLocked_iff (s : State) :
    s.rangeLocked (0, s.flashSize) = true ↔ ∃ a, a < 2 ^ s.cfg.geometry ∧ s.Protected a := by
  simp [rangeLocked_iff, State.flashSize]

section
variable {s : State} {e : ClassEntry} (x : Tx) (b : Byte) (hcls : e.cls = .eraseChip)
include hcls

theorem classify_of_eraseChip_refused (hlocked : s.rangeLocked (0, s.flashSize) = true) :
    s.classify x b e = s.refuse { x with range := some (0, s.flashSize) } .eraseChip none .policy := by
  simp only [State.classify, hcls, if_pos hlocked]

theorem classify_of_eraseChip_forwarded (hfree : ¬ s.rangeLocked (0, s.flashSize) = true) :
    s.classify x b e = s.forward { x with range := some (0, s.flashSize) } e [b] := by
  simp only [State.classify, hcls, if_neg hfree]

end

/-- Settles O16: the two outcomes of the judgement of the whole flash. -/
theorem eraseChipIsJudgedOnTheWholeFlash : Obligations.EraseChipIsJudgedOnTheWholeFlash := by
  rintro b s x e htx hphase rfl hcls
  refine ⟨_, exec_instructionByte htx hphase, fun hprotected => ?_, fun hnone => ?_⟩
  · rw [classify_of_eraseChip_refused _ b hcls ((wholeFlashLocked_iff s).mpr hprotected), classified_eq]
    exact refuse_eq ..
  · have hfree : ¬ s.rangeLocked (0, s.flashSize) = true := fun hlocked =>
      have ⟨a, ha, hprotected⟩ := (wholeFlashLocked_iff s).mp hlocked
      hnone a ha hprotected
    rw [classify_of_eraseChip_forwarded _ b hcls hfree, classified_eq]
    rfl

/-! ## PROGRAM, ERASE_SECTOR and ERASE_BLOCK -/

section
variable {s : State} {w p : Nat} {range : Nat × Nat}

/-- RANGE comes before POLICY (R114). -/
theorem judgeWrite_of_outOfField (h : w = 3 ∧ 2 ^ 24 ≤ p) : s.judgeWrite w p range = some .range :=
  if_pos ((outOfField_iff w p).mpr h)

/-- An address that fits its field is judged by the bytes of the affected range (R114). -/
theorem judgeWrite_of_fits (h : ¬ (w = 3 ∧ 2 ^ 24 ≤ p)) :
    s.judgeWrite w p range = if s.rangeLocked range then some .policy else none :=
  if_neg (mt (outOfField_iff w p).mp h)

theorem judgeWrite_of_protected (h : ¬ (w = 3 ∧ 2 ^ 24 ≤ p)) (hit : ∃ y, range.1 ≤ y ∧ y < range.1 + range.2 ∧ s.Protected y) :
    s.judgeWrite w p range = some .policy := by
  rw [judgeWrite_of_fits h, if_pos ((rangeLocked_iff s range).mpr hit)]

theorem judgeWrite_of_unprotected (h : ¬ (w = 3 ∧ 2 ^ 24 ≤ p))
    (hmiss : ¬ ∃ y, range.1 ≤ y ∧ y < range.1 + range.2 ∧ s.Protected y) : s.judgeWrite w p range = none := by
  rw [judgeWrite_of_fits h, if_neg (mt (rangeLocked_iff s range).mp hmiss)]

end

/-- The page, sector or block of a write to `p` (R17). -/
theorem affectedRange_of_unit {cls : TxClass} {n : Nat}
    (h : (cls = .program ∧ n = 256) ∨ (cls = .eraseSector ∧ n = 4096) ∨ (cls = .eraseBlock ∧ n = 65536)) (p size : Nat) :
    affectedRange cls p size = some (p - p % n, n) := by
  obtain ⟨rfl, rfl⟩ | ⟨rfl, rfl⟩ | ⟨rfl, rfl⟩ := h <;> rfl

/-- The last address byte of a write is taken by the write filter (R98, R114). -/
theorem exec_writeAddress {a : BitVec 32} {s : State} {x : Tx} {e : ClassEntry} (htx : s.up.tx = some x) (hphase : x.phase = .address)
    (hentry : x.entry = some e) (hcls : e.cls = .program ∨ e.cls = .eraseSector ∨ e.cls = .eraseBlock) :
    exec (.addressComplete a) s = .next (s.addressWrite (x.addressed e a) e a) := by
  have haddress : s.address (x.addressed e a) e a = s.addressWrite (x.addressed e a) e a := by
    obtain hcls | hcls | hcls := hcls <;> simp only [State.address, hcls]
  show execAddressComplete a s = _
  simp only [execAddressComplete, htx, hphase, hentry, haddress]

section
variable {s : State} {x : Tx} {e : ClassEntry} {a : BitVec 32} {l p : Nat} {range : Nat × Nat}
  (hl : s.logical e.addrBytes a = l) (hp : translate s.trans l = p) (hrange : affectedRange e.cls p s.flashSize = some range)
include hl hp hrange

/-- A refused write is sent without its last address byte (R118). -/
theorem addressWrite_of_refused {cause : RefusalCause} (hjudge : s.judgeWrite e.addrBytes p range = some cause) :
    s.addressWrite x e a
      = (s.send ((beBytes e.addrBytes p).take (e.addrBytes - 1))).refuse
          { x with captured := some s.trans, range := some range } e.cls (some l) cause := by
  simp only [State.addressWrite, hl, hp, hrange, Option.getD_some, hjudge]

theorem addressWrite_of_forwarded (hjudge : s.judgeWrite e.addrBytes p range = none) :
    s.addressWrite x e a
      = (s.setTx (some { x with captured := some s.trans, range := some range })).send (beBytes e.addrBytes p) := by
  simp only [State.addressWrite, hl, hp, hrange, Option.getD_some, hjudge]

end

/-- Settles O18: by the judgement of the affected range, RANGE first. -/
theorem aWriteReachesTheFlashWholeOnlyWhereNothingIsProtected :
    Obligations.AWriteReachesTheFlashWholeOnlyWhereNothingIsProtected := by
  intro a s x e n htx hphase hentry hunit field l p x1 tooHigh hit
  have hcls : e.cls = .program ∨ e.cls = .eraseSector ∨ e.cls = .eraseBlock :=
    hunit.imp And.left (Or.imp And.left And.left)
  have hl : s.logical e.addrBytes a = l := rfl
  have hp : translate s.trans l = p := rfl
  have hrange : affectedRange e.cls p s.flashSize = some (p - p % n, n) := affectedRange_of_unit hunit p s.flashSize
  have hx1 : { x.addressed e a with captured := some s.trans, range := some (p - p % n, n) } = x1 := by
    simp only [Tx.addressed, dataPhase_eq, x1]
    rfl
  have hrefused {cause : RefusalCause} (hjudge : s.judgeWrite e.addrBytes p (p - p % n, n) = some cause) :
      s.addressWrite (x.addressed e a) e a
        = (s.send ((beBytes e.addrBytes p).take (e.addrBytes - 1))).refuse x1 e.cls (some l) cause := by
    rw [addressWrite_of_refused hl hp hrange hjudge, hx1]
  refine ⟨_, exec_writeAddress htx hphase hentry hcls, fun hbad => ?_, fun hfits hmiss => ?_⟩
  · by_cases hhigh : tooHigh
    · rw [hrefused (judgeWrite_of_outOfField hhigh)]
      exact ⟨.range, fun _ => rfl, fun hfits => absurd hhigh hfits, refuse_eq ..⟩
    · rw [hrefused (judgeWrite_of_protected hhigh (hbad.resolve_left hhigh))]
      exact ⟨.policy, fun h => absurd h hhigh, fun _ => rfl, refuse_eq ..⟩
  · rw [addressWrite_of_forwarded hl hp hrange (judgeWrite_of_unprotected hfits hmiss), hx1]
    rfl

end Sys2Proof.Machine
end

section
/-! PROOFS. The clock the load settles on (R138, R139) and the check time on it (R75), as rationals. -/

namespace Sys2Proof.Machine

/-- The limits on the three clocks are the model's integer tests with the dividers multiplied out (R138). -/
theorem clockLegal_iff (f n m p : Nat) : clockLegal f n m p = true ↔
    1 ≤ n ∧ n ≤ 16 ∧ 8 ≤ m ∧ m ≤ 127 ∧ 1 ≤ p ∧ p ≤ 8 ∧ 4 ≤ (f : ℚ) / n ∧ 200 ≤ (f : ℚ) / n * m ∧ (f : ℚ) / n * m ≤ 480
      ∧ (f : ℚ) / n * m / p ≤ 120 := by
  simp only [clockLegal, Bool.and_eq_true, decide_eq_true_eq, and_assoc]
  refine and_congr_right fun hn => and_congr_right fun _ => and_congr_right fun _ => and_congr_right fun _ =>
    and_congr_right fun hp => and_congr_right fun _ => ?_
  have hn' : (0 : ℚ) < n := by exact_mod_cast hn
  have hp' : (0 : ℚ) < p := by exact_mod_cast hp
  rw [div_mul_eq_mul_div, div_div, le_div_iff₀ hn', le_div_iff₀ hn', div_le_iff₀ hn', div_le_iff₀ (mul_pos hn' hp')]
  norm_cast

/-- The check time is 1 200 000 µs·MHz over the core clock, rounded up (R75). -/
theorem checkTimeOf_eq_ceil {num den : Nat} (hnum : 0 < num) (hden : 0 < den) :
    (checkTimeOf num den : ℤ) = ⌈(1200000 : ℚ) / ((num : ℚ) / den)⌉ := by
  have hquotient : (1200000 : ℚ) / ((num : ℚ) / den) = ((1200000 * den : ℕ) : ℚ) / num := by
    push_cast
    field_simp
  have hceil : checkTimeOf num den = ⌈((1200000 * den : ℕ) : ℚ) / num⌉₊ := by
    refine eq_of_forall_ge_iff fun c => ?_
    rw [checkTimeOf, ← Nat.ceilDiv_eq_add_pred_div, ceilDiv_le_iff_le_mul hnum, Nat.ceil_le, div_le_iff₀ (by exact_mod_cast hnum)]
    norm_cast
    rw [mul_comm num c]
  rw [hquotient, hceil, Int.natCast_ceil_eq_ceil (by positivity)]

/-! ## The synthesizer the load leaves -/

theorem synthOf_of_lock {strap : Bool} {c : LoadedConfig} (hlow : strap = false) (hlegal : clockLegal c.fRef c.n c.m c.p = true) :
    synthOf strap c = ⟨c.fRef, c.n, c.m, c.p, false, c.fRef * c.m, c.n * c.p, checkTimeOf (c.fRef * c.m) (c.n * c.p)⟩ := by
  simp [synthOf, hlow, hlegal]

theorem synthOf_of_bypass {strap : Bool} {c : LoadedConfig} (h : ¬ (strap = false ∧ clockLegal c.fRef c.n c.m c.p = true)) :
    synthOf strap c = ⟨c.fRef, c.n, c.m, c.p, true, c.fRef, 1, checkTimeOf c.fRef 1⟩ := by
  have hlock : (!strap && clockLegal c.fRef c.n c.m c.p) = false := by simpa using h
  simp [synthOf, hlock]

/-- Settles O10: the loop locks, or the strap or an illegal setting leaves the bypass. -/
theorem theLoadSettlesTheClock : Obligations.TheLoadSettlesTheClock := by
  intro strap c hmin _ y pre vco core legal
  have hlegal : clockLegal c.fRef c.n c.m c.p = true ↔ legal := clockLegal_iff ..
  by_cases hlock : strap = false ∧ legal
  · have hy : y = _ := synthOf_of_lock hlock.1 (hlegal.mpr hlock.2)
    obtain ⟨hn, -, hm, -, hp, -⟩ := hlock.2
    have hcore : ((c.fRef * c.m : ℕ) : ℚ) / (c.n * c.p : ℕ) = core := by
      simp only [core, vco, pre]
      push_cast
      rw [div_mul_eq_mul_div, div_div]
    rw [hy]
    exact ⟨iff_of_true rfl hlock, hcore, checkTimeOf_eq_ceil (by positivity) (by positivity)⟩
  · have hy : y = _ := synthOf_of_bypass (by rwa [hlegal])
    rw [hy]
    exact ⟨iff_of_false nofun hlock, by simp, checkTimeOf_eq_ceil (by omega) one_pos⟩

end Sys2Proof.Machine
end

section
/-! PROOFS. The arbiter (R61, R63 to R65, R129, R133, R135): what is due by the state of the shadow, the round robin and the length of a
burst. -/

namespace Sys2Proof.Machine

/-! ## Demands (R129, R133) -/

theorem payloadOf_eq_some_iff {s : State} {z : Ctx} {i : Nat} : s.payloadOf z = some i ↔
    z.owner = .region i ∨ ∃ j p, z.owner = .pair j ∧ s.pair j = some p ∧ p.selected = some i := by
  cases howner : z.owner with
  | region k => simp [State.payloadOf, howner]
  | pair j => simp [State.payloadOf, howner, Option.bind_eq_some_iff]

/-- The need of a context by its owner (R61, R63): a payload is its region's, or its pair's candidate's. -/
theorem needsBytes_iff_owner (s : State) (c : Fin 4) : s.needsBytes c = true ↔
    ∃ z, s.ctx c = some z ∧ 0 < z.wanted ∧
      (z.phase = .header
        ∨ z.phase = .payload ∧ ∃ i y, (z.owner = .region i ∨ ∃ j p, z.owner = .pair j ∧ s.pair j = some p ∧ p.selected = some i)
            ∧ s.rt i = some y ∧ y.state = .hashing ∧ y.context = some c) := by
  simp only [needsBytes_iff, payloadOf_eq_some_iff]

theorem readingDemand_iff (s : State) : s.readingDemand = true ↔ ∃ c : Fin 4, s.needsBytes c = true := by
  simp [State.readingDemand]

theorem sleepDemand_iff (s : State) : s.sleepDemand = true ↔
    s.fp.shadow.sleepPending = true ∧ (s.queue = [] ∧ ∀ c : Fin 4, s.ctx c = none) ∧ s.fp.shadow.wdPending = false := by
  simp [State.sleepDemand, verifierIdle_iff, and_assoc]

theorem demand_iff (s : State) :
    s.demand = true ↔ s.readingDemand = true ∨ s.wdDemand = true ∨ s.sleepDemand = true := by
  simp [State.demand, or_assoc]

/-! ## The arbiter's choice, by the state of the shadow (R135) -/

theorem arbitrate_of_free {s : State} (hfree : s.fp.holder = .free) (hrun : s.permit.running = true) : s.arbitrate = s.issueDue :=
  if_pos ⟨hfree, hrun⟩

section
variable {s : State} (hawake : s.fp.shadow.power = .awake) (hidle : s.fp.shadow.busy = .idle)
include hawake hidle

theorem issueDue_of_writeDisable (hwd : s.wdDemand = true) : s.issueDue = s.issuePlain .writeDisable s.cfg.writeDisable := by
  simp [State.issueDue, Shadow.ready, hawake, hidle, hwd]

theorem issueDue_of_turn {c : Fin 4} {z : Ctx} (hwd : s.wdDemand = false) (hread : s.readingDemand = true)
    (hturn : s.nextServed = some c) (hz : s.ctx c = some z) : s.issueDue = s.issueBurst c z := by
  simp [State.issueDue, Shadow.ready, hawake, hidle, hwd, hread, hturn, hz]

theorem issueDue_of_sleep (hwd : s.wdDemand = false) (hread : s.readingDemand = false) (hsleep : s.sleepDemand = true) :
    s.issueDue = s.issuePlain .sleep s.cfg.sleep := by
  simp [State.issueDue, Shadow.ready, hawake, hidle, hwd, hread, hsleep]

end

/-- A flash that is not awake is woken first, unless its wake wait runs. -/
theorem issueDue_of_not_awake {s : State} (hpower : s.fp.shadow.power ≠ .awake) :
    s.issueDue =
      if s.demand = true ∧ s.fp.wakeWait = none then s.issuePlain (.wake (s.fp.shadow.power == .asleep)) s.cfg.wake else s := by
  simp [State.issueDue, Shadow.ready, hpower]

/-- A flash that is awake and not known to be IDLE is polled first, unless its poll wait runs. -/
theorem issueDue_of_not_idle {s : State} (hawake : s.fp.shadow.power = .awake) (hbusy : s.fp.shadow.busy ≠ .idle) :
    s.issueDue =
      if s.demand = true ∧ s.fp.pollWait = none then s.issuePlain .poll s.cfg.statusRead else s := by
  simp [State.issueDue, Shadow.ready, hawake, hbusy]

theorem issueDue_of_no_demand {s : State} (h : s.demand = false) : s.issueDue = s := by
  obtain ⟨⟨hread, hwd⟩, hsleep⟩ : (s.readingDemand = false ∧ s.wdDemand = false) ∧ s.sleepDemand = false := by
    simpa [State.demand] using h
  simp [State.issueDue, h, hread, hwd, hsleep]

/-! ## The round robin and the burst (R64, R65) -/

/-- The context whose turn it is: the first that needs bytes, counted from the one after the last served. -/
theorem nextServed_of_first {s : State} {c : Fin 4} (hneeds : s.needsBytes c = true)
    (hfirst : ∀ d : Fin 4, (d - s.fp.lastServed - 1).val < (c - s.fp.lastServed - 1).val → s.needsBytes d = false) :
    s.nextServed = some c := by
  have hround : s.nextServed = (List.ofFn fun k : Fin 4 => s.fp.lastServed + 1 + k).find? s.needsBytes := by
    simp [State.nextServed, add_assoc]
  rw [hround, List.find?_ofFn_eq_some]
  refine ⟨hneeds, c - s.fp.lastServed - 1, by abel, fun k hk => ?_⟩
  have hplace : s.fp.lastServed + 1 + k - s.fp.lastServed - 1 = k := by abel
  rw [hfirst _ (by rwa [hplace])]
  exact Bool.false_ne_true

/-- The length of the burst of a context that gathers the manifest behind the whole ones (R65). -/
theorem burstLength_of_store (s : State) {z : Ctx} {before behind : List Manifest} {i : Nat} {bs : List Byte}
    (hphase : z.phase = .header) (hstore : z.store = before ++ ⟨i, bs⟩ :: behind) (hwhole : ∀ m ∈ before, m.bytes.length = 80)
    (hshort : bs.length < 80) : s.burstLength z = min (256 * 2 ^ s.cfg.burstExp) (80 - bs.length) := by
  have hgathering : z.gathering = some ⟨i, bs⟩ := by
    rw [Ctx.gathering, hstore, find_short hwhole]
    simp [hshort]
  exact burstLength_header s hphase hgathering

/-! ## The statement -/

/-- Settles O58: by the state of the shadow; on a ready flash by the demands in their order. -/
theorem theArbiterIssuesWhatIsDue : Obligations.TheArbiterIssuesWhatIsDue := by
  intro s sh idle needs reading sleeping demand ready issued
  have hneeds (c : Fin 4) : s.needsBytes c = true ↔ needs c := needsBytes_iff_owner s c
  have hreading : s.readingDemand = true ↔ reading := (readingDemand_iff s).trans (exists_congr hneeds)
  have hsleeping : s.sleepDemand = true ↔ sleeping := sleepDemand_iff s
  have hdemand : s.demand = true ↔ demand :=
    (demand_iff s).trans (or_congr hreading (or_congr Iff.rfl hsleeping))
  refine ⟨fun hheld => hheld.elim (arbitrate_of_held s) (arbitrate_of_not_running s), fun hfree hrun => ?_⟩
  rw [arbitrate_of_free hfree hrun]
  refine ⟨fun hwd hready => ?writeDisable, fun hd hpower hwait => ?wake, fun hd hpower hwait => ?wakeWait,
    fun hd hpower hbusy hwait => ?poll, fun hd hpower hbusy hwait => ?pollWait,
    fun c z n hwd hready hc hz hfirst hlength => ?burst, fun hsleep hread hready => ?sleep, fun hd => ?nothing⟩
  case writeDisable => exact issueDue_of_writeDisable hready.1 hready.2 hwd
  case wake => exact (issueDue_of_not_awake hpower).trans (if_pos ⟨hdemand.mpr hd, hwait⟩)
  case wakeWait => exact (issueDue_of_not_awake hpower).trans (if_neg fun h => hwait h.2)
  case poll => exact (issueDue_of_not_idle hpower hbusy).trans (if_pos ⟨hdemand.mpr hd, hwait⟩)
  case pollWait => exact (issueDue_of_not_idle hpower hbusy).trans (if_neg fun h => hwait h.2)
  case burst =>
    have hturn : s.nextServed = some c :=
      nextServed_of_first ((hneeds c).mpr hc) fun d hd => Bool.eq_false_iff.mpr (mt (hneeds d).mp (hfirst d hd))
    have hlen : s.burstLength z = n := by
      obtain ⟨hphase, rfl⟩ | ⟨hphase, before, i, bs, behind, hstore, hwhole, hshort, rfl⟩ := hlength
      · exact burstLength_payload s hphase
      · exact burstLength_of_store s hphase hstore hwhole hshort
    rw [issueDue_of_turn hready.1 hready.2 hwd (hreading.mpr ⟨c, hc⟩) hturn hz, State.issueBurst, hlen]
    rfl
  case sleep =>
    exact issueDue_of_sleep hready.1 hready.2 hsleep.2.2 (Bool.eq_false_iff.mpr (mt hreading.mp hread)) (hsleeping.mpr hsleep)
  case nothing => exact issueDue_of_no_demand (Bool.eq_false_iff.mpr (mt hdemand.mp hd))

end Sys2Proof.Machine
end

section
/-! PROOFS. The flash port: the completions of the part's own instructions and the ends of its waits (R128, R130 to R132). -/

namespace Sys2Proof.Machine

/-! ## Completions: the flash FREE, the shadow after the instruction (R128, R130, R131) -/

section
variable {s : State}

/-- A write-disable leaves the write-enable latch CLEAR (R128). -/
theorem exec_writeDisableComplete (hholder : s.fp.holder = .own .writeDisable) :
    exec .writeDisableComplete s = .next
      (s.freeFlash.modShadow fun sh => { sh with writeEnable := .clear, wdPending := false }).arbitrate := by
  show execWriteDisableComplete s = _
  simp only [execWriteDisableComplete, hholder]

/-- A sleep leaves the flash ASLEEP (R128). -/
theorem exec_sleepComplete (hholder : s.fp.holder = .own .sleep) :
    exec .sleepComplete s = .next (s.freeFlash.modShadow Shadow.fallAsleep).arbitrate := by
  show execSleepComplete s = _
  simp only [execSleepComplete, hholder]

/-- A wake starts its wait, or with no wake time leaves the flash AWAKE (R130). -/
theorem exec_wakeComplete {fromAsleep : Bool} (hholder : s.fp.holder = .own (.wake fromAsleep)) :
    exec .wakeComplete s = .next
      ({ s with
          fp := { s.fp.toFree with
            shadow := s.fp.shadow.woken fromAsleep s.cfg.wakeTime
            wakeWait := if s.cfg.wakeTime = 0 then none else some s.cfg.wakeTime } }).arbitrate := by
  show execWakeComplete s = _
  simp only [execWakeComplete, hholder]
  rfl

/-- A poll teaches the shadow the status; BUSY starts the poll wait, IDLE leaves none (R131). -/
theorem exec_statusPollComplete (hholder : s.fp.holder = .own .poll) (status : Byte) :
    exec (.statusPollComplete status) s = .next
      ({ s with
          fp := { (s.freeFlash.readStatus status).fp with
            pollWait := if status.getLsbD s.cfg.busyBit.1 = true then some (10 * s.cfg.pollInterval) else none } }).arbitrate := by
  show execStatusPollComplete status s = _
  simp only [execStatusPollComplete, hholder]
  cases hbusy : status.getLsbD s.cfg.busyBit.1 <;> simp only [State.readStatus, State.freeFlash_cfg, hbusy] <;> rfl

/-! ## The ends of the waits (R130, R131) -/

theorem exec_wakeWaitEnd {r : Nat} (hwait : s.fp.wakeWait = some r) :
    exec .wakeWaitEnd s = .next
      ({ s.elapse r with fp := { (s.elapse r).fp with wakeWait := none, shadow := { s.fp.shadow with power := .awake } } }).arbitrate := by
  show execWakeWaitEnd s = _
  simp only [execWakeWaitEnd, hwait]
  rfl

theorem exec_pollWaitEnd {r : Nat} (hwait : s.fp.pollWait = some r) :
    exec .pollWaitEnd s = .next ({ s.elapse r with fp := { (s.elapse r).fp with pollWait := none } }).arbitrate := by
  show execPollWaitEnd s = _
  simp only [execPollWaitEnd, hwait]

end

/-- Settles O57: completion by completion, the wait's rest passing first where a wait ends. -/
theorem ownInstructionsAndWaitsComplete : Obligations.OwnInstructionsAndWaitsComplete :=
  ⟨fun _ => ⟨exec_writeDisableComplete, exec_sleepComplete, fun _ => exec_wakeComplete,
    fun status hholder => exec_statusPollComplete hholder status⟩, fun _ _ => ⟨exec_wakeWaitEnd, exec_pollWaitEnd⟩⟩

end Sys2Proof.Machine
end

section
/-! PROOFS. The key store's cells (R142, R143, R146, R149, R151): what a floor row counts, what the burn of a floor cell and of a revocation
cell completes, and the cell that a reset cuts. -/

namespace Sys2Proof.Machine

/-! ## Floor rows (R142) -/

/-- The burned cells of a row. -/
def burnedCells (row : BitVec 63) : Finset (Fin 63) := Finset.univ.filter fun p => row.getLsbD p = true

theorem mem_burnedCells {row : BitVec 63} {p : Fin 63} : p ∈ burnedCells row ↔ row.getLsbD p = true := Finset.mem_filter_univ p

theorem rowFloor_eq_card (row : BitVec 63) : rowFloor row = (burnedCells row).card := by
  rw [burnedCells, ← List.toFinset_finRange, (List.nodup_finRange 63).card_eq_countP, rowFloor, ← List.map_coe_finRange_eq_range,
    List.countP_map]
  simp [Function.comp_def]

/-- The next cell of a row is its lowest unburned one. -/
theorem rowNext_eq_some {row : BitVec 63} {p : Fin 63} (hp : row.getLsbD p = false)
    (hlow : ∀ q : Fin 63, q < p → row.getLsbD q = true) : rowNext row = some p := by
  obtain ⟨-, hfull⟩ | ⟨p', hnext, hp', hlow'⟩ := rowNext_cases row
  · exact absurd (hfull p) (by rw [hp]; nofun)
  · obtain hlt | heq | hgt := lt_trichotomy p p'
    · exact absurd (hlow' p hlt) (by rw [hp]; nofun)
    · rw [hnext, heq]
    · exact absurd (hlow p' hgt) (by rw [hp']; nofun)

/-- A row that is not full has a next cell. -/
theorem rowNext_of_not_full {row : BitVec 63} (h : rowFloor row < 63) :
    ∃ p : Fin 63, rowNext row = some p ∧ row.getLsbD p = false := by
  obtain ⟨-, hfull⟩ | ⟨p, hnext, hp, -⟩ := rowNext_cases row
  · have hall : burnedCells row = Finset.univ := Finset.filter_true_of_mem fun p _ => hfull p
    rw [rowFloor_eq_card, hall] at h
    simp at h
  · exact ⟨p, hnext, hp⟩

theorem floors_burn (st : Store) (k k' : Fin 8) (p : Fin 63) :
    (st.burn (.floor k p)).floors[k'] = if k' = k then st.floors[k] ||| (1#63 <<< p.1) else st.floors[k'] := by
  simp only [Store.burn, Fin.getElem_fin, Vector.getElem_set, Fin.val_inj, eq_comm]

/-- A burn of an unburned cell of a row raises the row's floor by one. -/
theorem rowFloor_burn {st : Store} {k : Fin 8} {p : Fin 63} (hp : st.floors[k].getLsbD p = false) :
    rowFloor (st.burn (.floor k p)).floors[k] = rowFloor st.floors[k] + 1 := by
  have hcells : burnedCells (st.burn (.floor k p)).floors[k] = insert p (burnedCells st.floors[k]) := by
    ext q
    have hq := burned_burn st (.floor k p) (.floor k q)
    simp only [Store.burned, Store.hasCell] at hq
    rw [Finset.mem_insert, mem_burnedCells, mem_burnedCells, hq]
    simp [or_comm]
  have hout : p ∉ burnedCells st.floors[k] := by rw [mem_burnedCells, hp]; nofun
  rw [rowFloor_eq_card, hcells, Finset.card_insert_of_notMem hout, rowFloor_eq_card]

/-- A burn leaves the floor of every other row. -/
theorem rowFloor_burn_other (st : Store) {k k' : Fin 8} (p : Fin 63) (h : k' ≠ k) :
    rowFloor (st.burn (.floor k p)).floors[k'] = rowFloor st.floors[k'] := by
  rw [floors_burn, if_neg h]

/-! ## Slot states (R173) -/

/-- An ACTIVE slot's active cell is burned. -/
theorem keyState_eq_active {st : Store} {slot : Fin 4} (h : st.keyState slot = .active) : st.active[slot] = true := by
  unfold Store.keyState at h
  split at h
  · assumption
  · cases h

/-- The burn of its revocation cell makes an ACTIVE slot REVOKED. -/
theorem keyState_burn_revoked {st : Store} {slot : Fin 4} (h : st.active[slot] = true) :
    (st.burn (.revoked slot)).keyState slot = .revoked := by
  simp [Store.keyState, Store.burn, h]

theorem keyState_burn_other (st : Store) {slot i : Fin 4} (h : i ≠ slot) : (st.burn (.revoked slot)).keyState i = st.keyState i := by
  have hval : slot.val ≠ i.val := fun he => h (Fin.ext he.symm)
  simp [Store.keyState, Store.burn, hval]

/-! ## The completions (R146, R149) -/

section
variable {s : State} {r : Nat}

/-- A floor cell that completes is the lowest unburned one of its row (R142, R146). -/
theorem exec_floorCellComplete {k : Fin 8} {target : Nat} {p : Fin 63} (hburn : s.keys.burn = some ⟨.floor k target, r⟩)
    (hnext : rowNext s.store.floors[k] = some p) :
    exec .floorCellComplete s = .next
      { s.elapse r with
        store := s.store.burn (.floor k p)
        keys := { s.keys with
          floors := s.keys.floors.set k (s.keys.floors[k] + 1)
          burn := if target ≤ s.keys.floors[k] + 1 then none else some ⟨.floor k target, 500⟩ } } := by
  have hself (n : Nat) : (s.keys.floors.set k n)[k] = n := Vector.getElem_set_self _
  show execFloorCellComplete s = _
  simp only [execFloorCellComplete, hburn, State.raiseOne, State.elapse_store, State.elapse_keys, hnext, hself]

theorem exec_revokeCellComplete {slot : Fin 4} (hburn : s.keys.burn = some ⟨.revoke slot, r⟩) :
    exec .revokeCellComplete s = .next
      { s.elapse r with
        store := s.store.burn (.revoked slot)
        keys := { s.keys with
          slots := s.keys.slots.set slot { s.keys.slots[slot] with state := .revoked }
          burn := none } } := by
  show execRevokeCellComplete s = _
  simp only [execRevokeCellComplete, hburn]
  rfl

end

/-- Settles O59: the lowest unburned cell is the row's next one, and each completion is its exact state. -/
theorem burnsComplete : Obligations.BurnsComplete :=
  fun _ _ => ⟨fun _ _ _ hburn hp hlow => exec_floorCellComplete hburn (rowNext_eq_some hp hlow), fun _ => exec_revokeCellComplete⟩

/-! ## The cell that a reset cuts (R151, R178) -/

/-- A reset leaves the store with the cell cut that was in the middle of its burn. -/
theorem store_of_reset {c : Instr} {s t : State} (hc : (∃ m b r, c = .powerOn m b r) ∨ (c = .resetNAssert ∧ s.resetN = false))
    (h : exec c s = .next t) : t.store = s.cutStore := by
  obtain ⟨mode, clkbyp, cutReads, rfl⟩ | ⟨rfl, hlow⟩ := hc
  · obtain rfl := Host.Outcome.next.inj h
    rfl
  · have hexec : execResetNAssert s = .next t := h
    rw [execResetNAssert, hlow] at hexec
    obtain rfl := Host.Outcome.next.inj hexec
    rfl

/-- With no provisioning burn running, the cut cell is that of the key store's job, if there is one. -/
theorem cut_of_not_provisioning {s : State} (h : ∀ want cell r, s.prov ≠ .burning want cell r) :
    s.cutStore.cut = match s.keys.burn with
      | some b => s.store.jobCell b.job
      | none => s.store.cut := by
  unfold State.cutStore
  cases hprov : s.prov with
  | burning want cell r => exact absurd hprov (h want cell r)
  | idle | reading => cases s.keys.burn <;> rfl

/-- Settles O8: by what runs at the reset, a provisioning burn before a job of the key store. -/
theorem aResetCutsTheCellInItsBurn : Obligations.AResetCutsTheCellInItsBurn := by
  intro c s t hc h
  rw [store_of_reset hc h]
  refine ⟨fun want cell r hprov => ?_, fun hquiet => ⟨fun hidle => ?_, fun slot r hburn => ?_, fun k target r hburn p hp hlow => ?_⟩⟩
  · simp only [State.cutStore, hprov]
  · rw [cut_of_not_provisioning hquiet, hidle]
  · rw [cut_of_not_provisioning hquiet, hburn]
    rfl
  · rw [cut_of_not_provisioning hquiet, hburn]
    simp only [Store.jobCell, rowNext_eq_some hp hlow, Option.map_some]

end Sys2Proof.Machine
end

section
/-! PROOFS. RAISE_FLOOR (R144, R145, R169) and REVOKE (R147, R148, R169): the images the printer is running, the judgements in their order,
and the responses. -/

namespace Sys2Proof.Machine

/-! ## The running images (R145) -/

theorem mem_runningImages_iff {s : State} {r : Region} {m : Recorded} : (r, m) ∈ s.runningImages ↔ ∃ i, s.RunningImage i r m := by
  simp only [State.runningImages, List.mem_filterMap, Prod.exists, List.mem_zipIdx_iff_getElem?]
  rw [exists_comm]
  refine exists_congr fun i => ?_
  unfold State.RunningImage State.region State.pairRecordOf
  simp only [Option.ite_none_right_eq_some, Option.map_eq_some_iff, Option.bind_eq_some_iff, Prod.mk.injEq, Bool.and_eq_true, beq_iff_eq]
  cases hof : s.pairOf i with
  | none =>
    simp only [existsAndEq, Option.bind_none, and_true, reduceCtorEq, false_and, exists_false, or_false, and_congr_right_iff]
    tauto
  | some j =>
    obtain ⟨p, hp⟩ := pairOf_pair hof
    simp only [existsAndEq, Option.bind_some, hp, Pair.isSelection, beq_iff_eq, and_true, reduceCtorEq, Option.some.injEq,
      exists_and_left, exists_eq_left', false_or, and_congr_right_iff]
    tauto

theorem least_eq_min? (l : List Nat) : least l = l.min? := by
  cases l with
  | nil => rfl
  | cons n ns => exact List.min?_cons'.symm

/-- The target is the smallest epoch of a running image of the kind (R145). -/
theorem floorTarget_eq_some_iff {s : State} {k : Fin 8} {t : Nat} : s.floorTarget k = some t ↔
    (∃ i r m, s.RunningImage i r m ∧ r.kind = some k ∧ m.epoch = t)
      ∧ ∀ i r m, s.RunningImage i r m → r.kind = some k → t ≤ m.epoch := by
  rw [State.floorTarget, least_eq_min?, List.min?_eq_some_iff]
  simp only [List.mem_map, List.mem_filter, Prod.exists, mem_runningImages_iff, beq_iff_eq]
  constructor
  · rintro ⟨⟨r, m, ⟨⟨i, himage⟩, hkind⟩, hepoch⟩, hleast⟩
    refine ⟨⟨i, r, m, himage, hkind, hepoch⟩, fun i' r' m' himage' hkind' => ?_⟩
    exact hleast _ ⟨r', m', ⟨⟨i', himage'⟩, hkind'⟩, rfl⟩
  · rintro ⟨⟨i, r, m, himage, hkind, hepoch⟩, hleast⟩
    refine ⟨⟨r, m, ⟨⟨i, himage⟩, hkind⟩, hepoch⟩, ?_⟩
    rintro _ ⟨r', m', ⟨⟨i', himage'⟩, hkind'⟩, rfl⟩
    exact hleast i' r' m' himage' hkind'

theorem floorTarget_eq_none {s : State} {k : Fin 8} (h : ∀ i r m, s.RunningImage i r m → r.kind ≠ some k) :
    s.floorTarget k = none := by
  refine Option.eq_none_iff_forall_ne_some.mpr fun t ht => ?_
  obtain ⟨⟨i, r, m, himage, hkind, -⟩, -⟩ := floorTarget_eq_some_iff.mp ht
  exact h i r m himage hkind

/-! ## The judgement of RAISE_FLOOR (R144) -/

theorem kindOf_eq_none {kind : Byte} (h : 7 < kind.toNat) : kindOf kind = none := dif_neg (by omega)

theorem kindOf_eq_some {kind : Byte} {k : Fin 8} (h : kind.toNat = k) : kindOf kind = some k := by
  rw [kindOf, dif_pos (by omega)]
  exact congrArg some (Fin.ext h)

section
variable {s : State} {kind : Byte} {k : Fin 8} {t : Nat}

theorem judgeRaise_refusedState (h : s.permit ≠ .permitted) : s.judgeRaise kind = (.refusedState, none) := if_pos h

section
variable (hpermit : s.permit = .permitted)
include hpermit

theorem judgeRaise_no_kind (hkind : kindOf kind = none) : s.judgeRaise kind = (.refusedArgument, none) := by
  simp only [State.judgeRaise, hpermit, hkind, ne_eq, not_true_eq_false, if_false]

theorem judgeRaise_no_image (hkind : kindOf kind = some k) (htarget : s.floorTarget k = none) :
    s.judgeRaise kind = (.refusedArgument, none) := by
  simp only [State.judgeRaise, hpermit, hkind, htarget, ne_eq, not_true_eq_false, if_false]

/-- With a target the burn in progress is judged before the floor (R144). -/
theorem judgeRaise_of_target (hkind : kindOf kind = some k) (htarget : s.floorTarget k = some t) :
    s.judgeRaise kind
      = (if s.keys.burn.isSome then .storeBusy else if t ≤ s.keys.floors[k] then .unchanged else .started, some t) := by
  simp only [State.judgeRaise, hpermit, hkind, htarget, ne_eq, not_true_eq_false, if_false]
  split
  · rfl
  · split <;> rfl

end

/-- A RAISE_FLOOR that is STARTED raises a floor that is below its target. -/
theorem judgeRaise_started {target : Option Nat} (h : s.judgeRaise kind = (.started, target)) :
    ∃ k t, kindOf kind = some k ∧ target = some t ∧ s.floorTarget k = some t ∧ s.keys.floors[k] < t := by
  by_cases hpermit : s.permit = .permitted
  · cases hkind : kindOf kind with
    | none => simp [judgeRaise_no_kind hpermit hkind] at h
    | some k =>
      cases htarget : s.floorTarget k with
      | none => simp [judgeRaise_no_image hpermit hkind htarget] at h
      | some t =>
        rw [judgeRaise_of_target hpermit hkind htarget, Prod.mk.injEq] at h
        obtain ⟨hstatus, rfl⟩ := h
        refine ⟨k, t, rfl, rfl, htarget, Nat.lt_of_not_le fun hle => ?_⟩
        rw [if_pos hle] at hstatus
        split at hstatus <;> cases hstatus
  · simp [judgeRaise_refusedState hpermit] at h

end

/-! ## RAISE_FLOOR in a listening part (R144, R169) -/

section
variable {s : State} (hlisten : s.Listening) {kind : Byte} {k : Fin 8} {t : Nat}
include hlisten

theorem exec_raiseFloor_of_listening : exec (.raiseFloor kind) s = .next (s.served.takeRaise kind).arbitrate :=
  congrArg Host.Outcome.next (request_of_listening hlisten [0x06, kind])

/-- A RAISE_FLOOR that is turned away changes nothing but the response. -/
theorem exec_raiseFloor_of_turned_away {status : Status} {target : Option Nat} (hjudge : s.judgeRaise kind = (status, target))
    (hno : status ≠ .started) :
    exec (.raiseFloor kind) s = .next
      ({ s.served with
          response := s.reply 0x06 kind status.code
            [byteOrFF ((kindOf kind).map fun k => s.keys.floors[k]), byteOrFF target] }).arbitrate := by
  have hjudge' : s.served.judgeRaise kind = (status, target) := hjudge
  rw [exec_raiseFloor_of_listening hlisten, State.takeRaise]
  simp only [hjudge', place_eq]
  split
  · exact absurd rfl hno
  · rfl

/-- A RAISE_FLOOR that is STARTED begins the burn of the row's first cell (R143, R144). -/
theorem exec_raiseFloor_of_started (hjudge : s.judgeRaise kind = (.started, some t)) (hkind : kindOf kind = some k) :
    exec (.raiseFloor kind) s = .next
      ({ s.served with
          keys := { s.keys with burn := some ⟨.floor k t, 500⟩ }
          response := s.reply 0x06 kind 1 [BitVec.ofNat 8 s.keys.floors[k], BitVec.ofNat 8 t] }).arbitrate := by
  have hjudge' : s.served.judgeRaise kind = (.started, some t) := hjudge
  rw [exec_raiseFloor_of_listening hlisten, State.takeRaise]
  simp only [hjudge', hkind, place_eq]
  rfl

end

/-- Settles O35: row by row of the judgement, the target being the least epoch of the kind's running images. -/
theorem raiseFloorIsJudgedInOrder : Obligations.RaiseFloorIsJudgedInOrder := by
  intro kind s hlisten
  refine ⟨fun hpermit => ⟨fun hout => ?_, fun k hk => ?_⟩, fun hpermit hout => ?_,
    fun k hpermit hk => ⟨fun hnone => ?_, fun i r m himage hkind hleast => ?_⟩⟩
  · rw [exec_raiseFloor_of_turned_away hlisten (judgeRaise_refusedState hpermit) nofun, kindOf_eq_none hout]
    rfl
  · rw [exec_raiseFloor_of_turned_away hlisten (judgeRaise_refusedState hpermit) nofun, kindOf_eq_some hk]
    rfl
  · have hkind := kindOf_eq_none hout
    rw [exec_raiseFloor_of_turned_away hlisten (judgeRaise_no_kind hpermit hkind) nofun, hkind]
    rfl
  · have hkind := kindOf_eq_some hk
    rw [exec_raiseFloor_of_turned_away hlisten (judgeRaise_no_image hpermit hkind (floorTarget_eq_none hnone)) nofun, hkind]
    rfl
  · have hk := kindOf_eq_some hk
    have htarget : s.floorTarget k = some m.epoch :=
      floorTarget_eq_some_iff.mpr ⟨⟨i, r, m, himage, hkind, rfl⟩, hleast⟩
    have hjudge := judgeRaise_of_target hpermit hk htarget
    refine ⟨fun hbusy => ?_, fun hidle hle => ?_, fun hidle hlt => ?_⟩
    · rw [if_pos hbusy] at hjudge
      rw [exec_raiseFloor_of_turned_away hlisten hjudge nofun, hk]
      rfl
    · rw [if_neg (by simp [hidle]), if_pos hle] at hjudge
      rw [exec_raiseFloor_of_turned_away hlisten hjudge nofun, hk]
      rfl
    · rw [if_neg (by simp [hidle]), if_neg (Nat.not_le.mpr hlt)] at hjudge
      exact exec_raiseFloor_of_started hlisten hjudge hk

/-! ## The judgement of REVOKE (R147, R148) -/

theorem slotOfByte_eq_none {slot : Byte} (h : 3 < slot.toNat) : slotOfByte slot = none := dif_neg (by omega)

theorem slotOfByte_eq_some {slot : Byte} {k : Fin 4} (h : slot.toNat = k) : slotOfByte slot = some k := by
  rw [slotOfByte, dif_pos (by omega)]
  exact congrArg some (Fin.ext h)

theorem otherSlotAllows_iff (s : State) (k : Fin 4) (q : Fin 8) : s.otherSlotAllows k q = true ↔
    ∃ o : Fin 4, o ≠ k ∧ s.keys.slots[o].state = .active ∧ s.keys.slots[o].allowed.getLsbD q = true := by
  simp only [State.otherSlotAllows, List.any_eq_true, List.mem_finRange, true_and, Bool.and_eq_true, bne_iff_ne, beq_iff_eq, and_assoc]

/-- A required image that a revocation strands: one that runs under the slot's key, or one of a kind that no other slot allows (R148). -/
theorem strands_iff (s : State) (k : Fin 4) : s.strands k = true ↔
    (∃ i r m, s.RunningImage i r m ∧ m.keySlot = k)
      ∨ ∃ i r q, s.region i = some r ∧ r.role = some .required ∧ r.kind = some q
          ∧ ∀ o : Fin 4, o ≠ k → ¬ (s.keys.slots[o].state = .active ∧ s.keys.slots[o].allowed.getLsbD q = true) := by
  have hkinds (q : Fin 8) : (!s.otherSlotAllows k q) = true ↔
      ∀ o : Fin 4, o ≠ k → ¬ (s.keys.slots[o].state = .active ∧ s.keys.slots[o].allowed.getLsbD q = true) := by
    rw [Bool.not_eq_true', ← Bool.not_eq_true, otherSlotAllows_iff]
    simp only [not_exists, not_and]
  simp only [State.strands, Bool.or_eq_true, List.any_eq_true, Prod.exists, mem_runningImages_iff, beq_iff_eq, Bool.and_eq_true,
    Option.any_eq_true, hkinds]
  refine or_congr ⟨?_, ?_⟩ ⟨?_, ?_⟩
  · rintro ⟨r, m, ⟨i, himage⟩, hslot⟩
    exact ⟨i, r, m, himage, hslot⟩
  · rintro ⟨i, r, m, himage, hslot⟩
    exact ⟨r, m, ⟨i, himage⟩, hslot⟩
  · rintro ⟨r, hr, hrole, q, hkind, hno⟩
    obtain ⟨i, hi⟩ := List.mem_iff_getElem?.mp hr
    exact ⟨i, r, q, hi, hrole, hkind, hno⟩
  · rintro ⟨i, r, q, hr, hrole, hkind, hno⟩
    exact ⟨r, List.mem_of_getElem? hr, hrole, q, hkind, hno⟩

section
variable {s : State} {slot : Byte} {k : Fin 4}

theorem judgeRevoke_refusedState (h : s.permit ≠ .permitted) : s.judgeRevoke slot = .refusedState := if_pos h

section
variable (hpermit : s.permit = .permitted)
include hpermit

theorem judgeRevoke_no_slot (hslot : slotOfByte slot = none) : s.judgeRevoke slot = .refusedArgument := by
  simp only [State.judgeRevoke, hpermit, hslot, ne_eq, not_true_eq_false, if_false]

variable (hslot : slotOfByte slot = some k)
include hslot

theorem judgeRevoke_empty (hstate : s.keys.slots[k].state = .empty) : s.judgeRevoke slot = .refusedArgument := by
  simp only [State.judgeRevoke, hpermit, hslot, hstate, ne_eq, not_true_eq_false, if_false]

theorem judgeRevoke_revoked (hstate : s.keys.slots[k].state = .revoked) : s.judgeRevoke slot = .unchanged := by
  simp only [State.judgeRevoke, hpermit, hslot, hstate, ne_eq, not_true_eq_false, if_false]

/-- Of an ACTIVE slot the burn in progress is judged before the images that would be stranded (R147). -/
theorem judgeRevoke_active (hstate : s.keys.slots[k].state = .active) :
    s.judgeRevoke slot = if s.keys.burn.isSome then .storeBusy else if s.strands k then .refusedLastKey else .started := by
  simp only [State.judgeRevoke, hpermit, hslot, hstate, ne_eq, not_true_eq_false, if_false]

end

/-- A REVOKE that is STARTED revokes an ACTIVE slot. -/
theorem judgeRevoke_started (h : s.judgeRevoke slot = .started) :
    ∃ k, slotOfByte slot = some k ∧ s.keys.slots[k].state = .active := by
  by_cases hpermit : s.permit = .permitted
  · cases hslot : slotOfByte slot with
    | none => simp [judgeRevoke_no_slot hpermit hslot] at h
    | some k =>
      cases hstate : s.keys.slots[k].state with
      | empty => simp [judgeRevoke_empty hpermit hslot hstate] at h
      | revoked => simp [judgeRevoke_revoked hpermit hslot hstate] at h
      | active => exact ⟨k, rfl, hstate⟩
  · simp [judgeRevoke_refusedState hpermit] at h

end

/-! ## REVOKE in a listening part (R147, R169) -/

section
variable {s : State} (hlisten : s.Listening) {slot : Byte} {k : Fin 4}
include hlisten

theorem exec_revoke_of_listening : exec (.revoke slot) s = .next (s.served.takeRevoke slot).arbitrate :=
  congrArg Host.Outcome.next (request_of_listening hlisten [0x07, slot])

/-- A REVOKE that is turned away changes nothing but the response. -/
theorem exec_revoke_of_turned_away {status : Status} (hjudge : s.judgeRevoke slot = status) (hno : status ≠ .started) :
    exec (.revoke slot) s = .next
      ({ s.served with
          response := s.reply 0x07 slot status.code
            [((slotOfByte slot).map fun k : Fin 4 => s.keys.slots[k].state.code).getD 0xFF] }).arbitrate := by
  have hjudge' : s.served.judgeRevoke slot = status := hjudge
  rw [exec_revoke_of_listening hlisten, State.takeRevoke]
  simp only [hjudge', place_eq]
  split
  · exact absurd rfl hno
  · rfl

/-- A REVOKE that is STARTED begins the burn of the slot's revocation cell (R143, R147). -/
theorem exec_revoke_of_started (hjudge : s.judgeRevoke slot = .started) (hslot : slotOfByte slot = some k) :
    exec (.revoke slot) s = .next
      ({ s.served with
          keys := { s.keys with burn := some ⟨.revoke k, 500⟩ }
          response := s.reply 0x07 slot 1 [s.keys.slots[k].state.code] }).arbitrate := by
  have hjudge' : s.served.judgeRevoke slot = .started := hjudge
  rw [exec_revoke_of_listening hlisten, State.takeRevoke]
  simp only [hjudge', hslot, place_eq]
  rfl

end

/-- Settles O36: row by row of the judgement, the last by `strands_iff`. -/
theorem revokeIsJudgedInOrder : Obligations.RevokeIsJudgedInOrder := by
  intro slot s hlisten
  refine ⟨fun hpermit => ⟨fun hout => ?_, fun k hk => ?_⟩, fun hpermit hout => ?_, fun k hpermit hk => ?_⟩
  · rw [exec_revoke_of_turned_away hlisten (judgeRevoke_refusedState hpermit) nofun, slotOfByte_eq_none hout]
    rfl
  · rw [exec_revoke_of_turned_away hlisten (judgeRevoke_refusedState hpermit) nofun, slotOfByte_eq_some hk]
    rfl
  · have hslot := slotOfByte_eq_none hout
    rw [exec_revoke_of_turned_away hlisten (judgeRevoke_no_slot hpermit hslot) nofun, hslot]
    rfl
  · have hslot := slotOfByte_eq_some hk
    have hturned {status : Status} {st : KeyState} (hstate : s.keys.slots[k].state = st) (hjudge : s.judgeRevoke slot = status)
        (hno : status ≠ .started) : exec (.revoke slot) s = .next
          ({ s.served with response := s.reply 0x07 slot status.code [st.code] }).arbitrate := by
      rw [exec_revoke_of_turned_away hlisten hjudge hno, hslot, ← hstate]
      rfl
    refine ⟨fun hstate => ?_, fun hstate => ?_, fun hstate hbusy => ?_, fun hstate hidle hstrands => ?_, fun hstate hidle hsafe => ?_⟩
    · rw [hturned hstate (judgeRevoke_empty hpermit hslot hstate) nofun]
      rfl
    · rw [hturned hstate (judgeRevoke_revoked hpermit hslot hstate) nofun]
      rfl
    · have hjudge := judgeRevoke_active hpermit hslot hstate
      rw [if_pos hbusy] at hjudge
      rw [hturned hstate hjudge nofun]
      rfl
    · have hjudge := judgeRevoke_active hpermit hslot hstate
      rw [if_neg (by simp [hidle]), if_pos ((strands_iff s k).mpr hstrands)] at hjudge
      rw [hturned hstate hjudge nofun]
      rfl
    · have hjudge := judgeRevoke_active hpermit hslot hstate
      rw [if_neg (by simp [hidle]), if_neg (mt (strands_iff s k).mp hsafe)] at hjudge
      rw [exec_revoke_of_started hlisten hjudge hslot, hstate]
      rfl

end Sys2Proof.Machine
end

section
/-! PROOFS. What the operations of the verifier leave: every record but the verifier's own and the flash port's. -/

namespace Sys2Proof.Machine

/-- The state with the records cleared that an operation of the verifier may write: the queue, the pairs, the runtime records, the windows,
the contexts, the signature records and the flash port. Two states that are equal so agree in every other record. -/
def State.sansVerifier (s : State) : State :=
  { s with
    queue := [], pairs := [], runtime := [], trans := [], contexts := Vector.replicate 4 none, sigList := [], sigUnit := .idle
    fp := FlashPort.afterReset Shadow.afterPowerOn }

variable (s : State)

/-! ## Records and contexts -/

@[simp] theorem modRt_sansVerifier (i : Nat) (f : Runtime → Runtime) : (s.modRt i f).sansVerifier = s.sansVerifier := rfl
@[simp] theorem modPair_sansVerifier (j : Nat) (f : Pair → Pair) : (s.modPair j f).sansVerifier = s.sansVerifier := rfl
@[simp] theorem setCtx_sansVerifier (c : Fin 4) (x : Option Ctx) : (s.setCtx c x).sansVerifier = s.sansVerifier := rfl
@[simp] theorem releaseCtx_sansVerifier (c : Fin 4) : (s.releaseCtx c).sansVerifier = s.sansVerifier := rfl
@[simp] theorem withdraw_sansVerifier (i : Nat) : (s.withdraw i).sansVerifier = s.sansVerifier := rfl
@[simp] theorem newAttempt_sansVerifier (i : Nat) : (s.newAttempt i).sansVerifier = s.sansVerifier := rfl

@[simp] theorem countBurst_sansVerifier (c : Fin 4) (left : Nat) : (s.countBurst c left).sansVerifier = s.sansVerifier := by
  rw [countBurst_eq]
  rfl

@[simp] theorem releaseOwner_sansVerifier (o : Owner) : (s.releaseOwner o).sansVerifier = s.sansVerifier := by
  rw [releaseOwner_eq]; rfl

@[simp] theorem setSelection_sansVerifier (j : Nat) (sel : Selection) : (s.setSelection j sel).sansVerifier = s.sansVerifier := by
  rw [setSelection_eq]; rfl

@[simp] theorem beginDigest_sansVerifier (c : Fin 4) (i : Nat) : (s.beginDigest c i).sansVerifier = s.sansVerifier := by
  unfold State.beginDigest
  split <;> rfl

/-! ## The pair selection procedure -/

@[simp] theorem failPair_sansVerifier (j : Nat) : (s.failPair j).sansVerifier = s.sansVerifier := by simp [State.failPair]

@[simp] theorem tryCandidate_sansVerifier (j : Nat) (slot : Slot) (st : PairState) :
    (s.tryCandidate j slot st).sansVerifier = s.sansVerifier := by
  unfold State.tryCandidate
  split <;> simp

@[simp] theorem rankPair_sansVerifier (j : Nat) : (s.rankPair j).sansVerifier = s.sansVerifier := by
  unfold State.rankPair
  split
  · rfl
  · split <;> simp

@[simp] theorem candidateVerified_sansVerifier (j : Nat) : (s.candidateVerified j).sansVerifier = s.sansVerifier := by
  unfold State.candidateVerified
  split
  · rfl
  · dsimp only
    split <;> simp

@[simp] theorem candidateRejected_sansVerifier (j : Nat) : (s.candidateRejected j).sansVerifier = s.sansVerifier := by
  unfold State.candidateRejected
  split
  · rfl
  · split
    · split <;> simp
    · simp

/-! ## Header checks and bytes -/

@[simp] theorem headerCheck_sansVerifier (c : Fin 4) (i : Nat) : (s.headerCheck c i).sansVerifier = s.sansVerifier := by
  unfold State.headerCheck
  split
  · split
    · split <;> simp
    · rfl
  · rfl

@[simp] theorem manifestComplete_sansVerifier (c : Fin 4) (i : Nat) : (s.manifestComplete c i).sansVerifier = s.sansVerifier := by
  unfold State.manifestComplete
  dsimp only
  repeat' split
  all_goals simp

@[simp] theorem gather_sansVerifier (c : Fin 4) (b : Byte) : (s.gather c b).sansVerifier = s.sansVerifier := by
  unfold State.gather
  split
  · rfl
  · split
    · rfl
    · dsimp only
      split <;> simp

@[simp] theorem completeDigest_sansVerifier (c : Fin 4) (i : Nat) : (s.completeDigest c i).sansVerifier = s.sansVerifier := by
  unfold State.completeDigest
  split
  · dsimp only
    repeat' split
    all_goals rfl
  · rfl

@[simp] theorem absorb_sansVerifier (c : Fin 4) (i : Nat) (b : Byte) (seen : Bool) :
    (s.absorb c i b seen).sansVerifier = s.sansVerifier := by
  unfold State.absorb
  split
  · dsimp only
    split <;> simp
  · rfl

@[simp] theorem takeByte_sansVerifier (c : Fin 4) (b : Byte) : (s.takeByte c b).sansVerifier = s.sansVerifier := by
  unfold State.takeByte
  split
  · simp
  · split <;> simp
  · rfl

/-! ## Accepted writes and check results -/

@[simp] theorem dropWaiting_sansVerifier (j : Nat) (slot : Slot) (i : Nat) :
    (s.dropWaiting j slot i).sansVerifier = s.sansVerifier := by
  unfold State.dropWaiting
  split
  · rfl
  · dsimp only
    repeat' split
    all_goals simp

@[simp] theorem staleInProgress_sansVerifier (i : Nat) : (s.staleInProgress i).sansVerifier = s.sansVerifier := by
  unfold State.staleInProgress
  dsimp only
  repeat' split
  all_goals simp

@[simp] theorem staleRegion_sansVerifier (i : Nat) : (s.staleRegion i).sansVerifier = s.sansVerifier := by
  unfold State.staleRegion
  split
  case h_7 =>
    dsimp only
    split <;> simp
  all_goals simp

@[simp] theorem staleRange_sansVerifier (range : Nat × Nat) : (s.staleRange range).sansVerifier = s.sansVerifier :=
  foldl_keeps (P := fun t => t.sansVerifier = s.sansVerifier) (fun t i h => (staleRegion_sansVerifier t i).trans h) _ s rfl

@[simp] theorem applyResult_sansVerifier (e : SigEntry) (passed : Bool) : (s.applyResult e passed).sansVerifier = s.sansVerifier := by
  unfold State.applyResult
  split
  · dsimp only
    split
    · split <;> simp
    · simp
  · rfl

end Sys2Proof.Machine
end

section
/-! PROOFS. Most of what an event does leaves the key store and the store's cells (R141 to R143, R173), but for the time that a burn has
left, and brings no part into a running permit state. -/

namespace Sys2Proof.Machine

/-! ## The relation -/

/-- The records that `KeysAgree` reads. -/
def State.keyView (s : State) : Store × KeyStore × PermitState := (s.store, s.keys, s.permit)

/-- From `s` to `t` the store's cells and the key store stand, but for the time that a burn has left, and a part that does not run does not
begin to. -/
structure KeepsKeys (s t : State) : Prop where
  store : t.store = s.store
  slots : t.keys.slots = s.keys.slots
  floors : t.keys.floors = s.keys.floors
  job : t.keys.burn.map Burn.job = s.keys.burn.map Burn.job
  running : t.permit.running = true → s.permit.running = true

variable {s t u : State}

theorem KeepsKeys.of_view (h : t.keyView = s.keyView) : KeepsKeys s t := by
  simp only [State.keyView, Prod.mk.injEq] at h
  obtain ⟨hstore, hkeys, hpermit⟩ := h
  exact ⟨hstore, by rw [hkeys], by rw [hkeys], by rw [hkeys], by rw [hpermit]; exact id⟩

theorem KeepsKeys.refl (s : State) : KeepsKeys s s := .of_view rfl

theorem KeepsKeys.trans (h : KeepsKeys s t) (h' : KeepsKeys t u) : KeepsKeys s u :=
  ⟨h'.store.trans h.store, h'.slots.trans h.slots, h'.floors.trans h.floors, h'.job.trans h.job, h.running ∘ h'.running⟩

theorem jobSound_congr {k k' : KeyStore} (hslots : k'.slots = k.slots) (hfloors : k'.floors = k.floors) (job : BurnJob) :
    k'.jobSound job ↔ k.jobSound job := by
  cases job <;> simp only [KeyStore.jobSound, hslots, hfloors]

theorem KeepsKeys.agrees (h : KeepsKeys s t) (hs : s.KeysAgree) : t.KeysAgree := by
  intro hrunning
  obtain ⟨hfloors, hslots, hjob⟩ := hs (h.running hrunning)
  refine ⟨fun k => ?_, fun i => ?_, fun b hb => ?_⟩
  · simpa only [h.floors, h.store] using hfloors k
  · simpa only [h.slots, h.store] using hslots i
  · obtain ⟨b', hb', hsame⟩ : ∃ b', s.keys.burn = some b' ∧ b'.job = b.job := by
      simpa [hb] using h.job.symm
    exact (jobSound_congr h.slots h.floors b.job).mpr (hsame ▸ hjob b' hb')

/-- A part that does not run has nothing to agree. -/
theorem keysAgree_of_not_running (h : t.permit.running = false) : t.KeysAgree := fun hrunning => by simp [h] at hrunning

/-! ## What closes an event, and time -/

theorem KeepsKeys.of_sansVerifier (h : t.sansVerifier = s.sansVerifier) : KeepsKeys s t :=
  have hview : t.sansVerifier.keyView = s.sansVerifier.keyView := congrArg State.keyView h
  .of_view hview

theorem KeepsKeys.settle (h : KeepsKeys s t) : KeepsKeys s t.settle := by
  refine h.trans ⟨by simp, by simp, by simp, by simp, fun hrunning => ?_⟩
  obtain hsame | ⟨hbefore, -⟩ := settle_permit_running t
  · exact hsame ▸ hrunning
  · exact hbefore

theorem KeepsKeys.arbitrate (h : KeepsKeys s t) : KeepsKeys s t.arbitrate := h.trans (.of_view (by simp [State.keyView]))

theorem KeepsKeys.settleMode (h : KeepsKeys s t) : KeepsKeys s t.settleMode := h.trans (.of_view (by simp [State.keyView]))

theorem KeepsKeys.drive (h : KeepsKeys s t) : KeepsKeys s t.drive := h.trans (.of_view rfl)

/-- Other records may change too. -/
theorem KeepsKeys.same (h : KeepsKeys s t) (h' : u.keyView = t.keyView) : KeepsKeys s u := h.trans (.of_view h')

theorem elapse_keepsKeys (s : State) (d : Nat) : KeepsKeys s (s.elapse d) :=
  ⟨rfl, rfl, rfl, by cases h : s.keys.burn <;> simp [h], id⟩

theorem expire_keepsKeys (s : State) : KeepsKeys s s.expire :=
  .of_view (by rw [expire_changesVerifier s]; rfl)

end Sys2Proof.Machine
end

section
/-! PROOFS. The commands that leave the key store and the store's cells: those of a transaction in progress, and the completions and
expiries but the key store's own. -/

namespace Sys2Proof.Machine

/-! ## The bytes of a transaction in progress -/

theorem wire_keyView (s : State) (bs : List Byte) : (s.wire bs).keyView = s.keyView := by
  obtain ⟨-, -, he⟩ | ⟨-, he⟩ := wire_cases s bs
  · rw [he]
    rfl
  · rw [he]

@[simp] theorem forward_keyView (s : State) (x : Tx) (e : ClassEntry) (bs : List Byte) : (s.forward x e bs).keyView = s.keyView := rfl
@[simp] theorem truncate_keyView (s : State) (x : Tx) : (s.truncate x).keyView = s.keyView := rfl
@[simp] theorem refuse_keyView (s : State) (x : Tx) (cls : TxClass) (a : Option Nat) (cause : RefusalCause) :
    (s.refuse x cls a cause).keyView = s.keyView := by
  rw [refuse_eq]
  simp [State.keyView]

theorem classify_keyView (s : State) (x : Tx) (b : Byte) (e : ClassEntry) : (s.classify x b e).keyView = s.keyView := by
  unfold State.classify
  split
  case h_2 => simp [State.keyView, State.truncate]
  case h_3 | h_5 => split <;> simp
  case h_4 => dsimp only; split <;> simp
  all_goals rfl

theorem address_keyView (s : State) (x : Tx) (e : ClassEntry) (a : BitVec 32) : (s.address x e a).keyView = s.keyView := by
  unfold State.address
  split
  case h_1 =>
    unfold State.addressRead
    dsimp only
    split <;> rfl
  case h_2 | h_3 | h_4 =>
    unfold State.addressWrite
    dsimp only
    split
    · rw [refuse_keyView]; rfl
    · rfl
  all_goals rfl

theorem serviceByte_keyView (s : State) (x : Tx) (e : ClassEntry) (b : Byte) : (s.serviceByte x e b).keyView = s.keyView := by
  unfold State.serviceByte
  dsimp only
  repeat' split
  all_goals rfl

theorem snoop_keyView (s : State) (b : Byte) : (s.snoop b).keyView = s.keyView := by
  unfold State.snoop
  split <;> rfl

theorem offer_keepsKeys (s : State) (a : Nat) (b : Byte) : KeepsKeys s (s.offer a b) := by
  have habsorb (c : Fin 4) (i : Nat) : KeepsKeys s (s.absorb c i b true) := .of_sansVerifier (absorb_sansVerifier s c i b true)
  unfold State.offer
  split
  · split
    · exact (habsorb _ _).settle
    · exact habsorb _ _
  · exact .refl s

theorem dataByte_keepsKeys (s : State) (x : Tx) (e : ClassEntry) (b : Byte) : KeepsKeys s (s.dataByte x e b) := by
  unfold State.dataByte
  dsimp only
  split
  case h_1 => exact .of_view (serviceByte_keyView s x e b)
  case h_5 =>
    unfold State.readByte
    dsimp only
    split
    · refine KeepsKeys.trans ?_ (offer_keepsKeys _ _ b)
      exact .of_view rfl
    · exact .of_view rfl
  case h_6 =>
    split
    · exact .of_view (snoop_keyView _ b)
    · exact .of_view rfl
  all_goals exact .of_view rfl

/-! ## The judgement at select rise -/

theorem acceptWrite_keepsKeys (s : State) (x : Tx) : KeepsKeys s (s.acceptWrite x) := by
  have hmark : KeepsKeys s s.written := .of_view rfl
  unfold State.acceptWrite
  split
  · exact .refl s
  · dsimp only
    split
    · exact (hmark.trans (.of_sansVerifier (staleRange_sansVerifier s.written _))).settle
    · exact hmark

theorem judgeRise_keepsKeys (s : State) (x : Tx) : KeepsKeys s (s.judgeRise x) := by
  unfold State.judgeRise
  split
  · exact .refl s
  · split
    · unfold State.accept
      split
      case h_1 | h_2 | h_3 | h_4 | h_5 => exact acceptWrite_keepsKeys s x
      all_goals exact .of_view rfl
    · split <;> exact .of_view rfl

/-- A transaction that is over, its request still to be taken (R86, R100). -/
theorem ended_keepsKeys (s : State) (x : Tx) : KeepsKeys s ((s.judgeRise x).handCauses x).endTx := by
  refine KeepsKeys.settleMode ((judgeRise_keepsKeys s x).same ?_)
  rw [handCauses_eq]
  rfl

/-! ## The commands of the upstream port that take no request -/

section
variable {s t : State}

theorem execUpstreamSelectAssert_keepsKeys (h : execUpstreamSelectAssert s = .next t) : KeepsKeys s t := by
  unfold execUpstreamSelectAssert at h
  dsimp only at h
  split at h
  · cases h
    exact .refl s
  · split at h <;> cases h <;> exact .of_view rfl

theorem execInstructionByteComplete_keepsKeys {b : Byte} (h : execInstructionByteComplete b s = .next t) : KeepsKeys s t := by
  unfold execInstructionByteComplete at h
  split at h
  · split at h <;> cases h
    · exact .of_view (classify_keyView s _ b _)
    · exact .refl s
  · cases h
    exact .of_view (wire_keyView s [b])

theorem execAddressComplete_keepsKeys {a : BitVec 32} (h : execAddressComplete a s = .next t) : KeepsKeys s t := by
  unfold execAddressComplete at h
  split at h
  · split at h <;> cases h
    · exact .of_view (address_keyView s _ _ a)
    · exact .refl s
  · cases h
    exact .of_view (wire_keyView s _)

theorem execDummyCountComplete_keepsKeys (h : execDummyCountComplete s = .next t) : KeepsKeys s t := by
  unfold execDummyCountComplete at h
  split at h
  · split at h <;> cases h <;> exact .of_view rfl
  · cases h
    exact .refl s

theorem execUpstreamDataByte_keepsKeys {b : Byte} (h : execUpstreamDataByte b s = .next t) : KeepsKeys s t := by
  unfold execUpstreamDataByte at h
  split at h
  · cases h
    split <;> exact .of_view rfl
  · cases h
    split
    · exact .of_view (wire_keyView s [b])
    · exact .refl s
  · split at h
    · split at h <;> cases h
      · exact dataByte_keepsKeys s _ _ b
      · exact .refl s
    · cases h
      exact .refl s

theorem execFetch_keepsKeys (h : execFetch s = .next t) : KeepsKeys s t := by
  unfold execFetch at h
  split at h
  · split at h <;> cases h <;> exact .of_view rfl
  · split at h <;> cases h <;> exact .of_view rfl

/-! ## Completions and expiries -/

theorem execBurstByteReceived_keepsKeys {b : Byte} (h : execBurstByteReceived b s = .next t) : KeepsKeys s t := by
  unfold execBurstByteReceived at h
  split at h <;> cases h
  · rename_i c left _
    have hbyte : KeepsKeys s ((s.takeByte c b).countBurst c left) := .of_sansVerifier (by simp)
    refine KeepsKeys.arbitrate ?_
    split
    · exact hbyte.settle
    · exact hbyte
  · exact .refl s

theorem execSignatureCheckComplete_keepsKeys (h : execSignatureCheckComplete s = .next t) : KeepsKeys s t := by
  unfold execSignatureCheckComplete at h
  split at h <;> cases h
  · rename_i e withdrawn key left _
    have hchecked : KeepsKeys s (s.checked left) := (elapse_keepsKeys s left).same rfl
    refine KeepsKeys.arbitrate (KeepsKeys.settle ?_)
    split
    · exact hchecked
    · exact hchecked.trans (.of_sansVerifier (applyResult_sansVerifier (s.checked left) e _))
  · exact .refl s

theorem execDeadlineExpiry_keepsKeys (h : execDeadlineExpiry s = .next t) : KeepsKeys s t := by
  unfold execDeadlineExpiry at h
  split at h <;> cases h
  · exact ((elapse_keepsKeys s _).trans (expire_keepsKeys _)).settle.arbitrate
  · exact .refl s

theorem execHoldPulseExpiry_keepsKeys (h : execHoldPulseExpiry s = .next t) : KeepsKeys s t := by
  unfold execHoldPulseExpiry at h
  split at h <;> cases h
  · exact (elapse_keepsKeys s _).same rfl
  · exact .refl s
  · exact .refl s

theorem execWakeComplete_keepsKeys (h : execWakeComplete s = .next t) : KeepsKeys s t := by
  unfold execWakeComplete at h
  split at h <;> cases h
  · exact KeepsKeys.arbitrate (.of_view rfl)
  · exact .refl s

theorem execWakeWaitEnd_keepsKeys (h : execWakeWaitEnd s = .next t) : KeepsKeys s t := by
  unfold execWakeWaitEnd at h
  split at h <;> cases h
  · exact KeepsKeys.arbitrate ((elapse_keepsKeys s _).same rfl)
  · exact .refl s

theorem execStatusPollComplete_keepsKeys {status : Byte} (h : execStatusPollComplete status s = .next t) : KeepsKeys s t := by
  unfold execStatusPollComplete at h
  split at h <;> cases h
  · refine KeepsKeys.arbitrate ?_
    split <;> exact .of_view rfl
  · exact .refl s

theorem execPollWaitEnd_keepsKeys (h : execPollWaitEnd s = .next t) : KeepsKeys s t := by
  unfold execPollWaitEnd at h
  split at h <;> cases h
  · exact KeepsKeys.arbitrate ((elapse_keepsKeys s _).same rfl)
  · exact .refl s

theorem execWriteDisableComplete_keepsKeys (h : execWriteDisableComplete s = .next t) : KeepsKeys s t := by
  unfold execWriteDisableComplete at h
  split at h <;> cases h
  · exact KeepsKeys.arbitrate (.of_view rfl)
  · exact .refl s

theorem execSleepComplete_keepsKeys (h : execSleepComplete s = .next t) : KeepsKeys s t := by
  unfold execSleepComplete at h
  split at h <;> cases h
  · exact KeepsKeys.arbitrate (.of_view rfl)
  · exact .refl s

end

end Sys2Proof.Machine
end

section
/-! PROOFS. Every step keeps the key store's floors and slots in agreement with the cells of the store (R141, R142, R146, R149, R173): the
jobs that RAISE_FLOOR and REVOKE start are sound, their completions change floor and row, slot and cell together, and a load reads both
from the cells. -/

namespace Sys2Proof.Machine

/-! ## Requests -/

theorem arbitrate_keysAgree {s : State} (hs : s.KeysAgree) : s.arbitrate.KeysAgree := (KeepsKeys.refl s).arbitrate.agrees hs

theorem settleMode_keysAgree {s : State} (hs : s.KeysAgree) : s.settleMode.KeysAgree := (KeepsKeys.refl s).settleMode.agrees hs

section
variable {s : State}

/-- A running image has a recorded epoch of at most 63 (R28). -/
theorem epoch_le_of_runningImage (hrecords : s.RecordsProper) {i : Nat} {r : Region} {m : Recorded} (h : s.RunningImage i r m) :
    m.epoch ≤ 63 := by
  obtain ⟨-, -, -, ⟨y, hy, hm⟩, -⟩ := h
  obtain ⟨_, -, -, -, hfields⟩ := hrecords i y hy
  obtain ⟨-, -, hepoch, -⟩ := hfields m hm
  exact hepoch

/-- A sound job that begins keeps the agreement. -/
theorem keysAgree_startBurn {job : BurnJob} (hs : s.KeysAgree) (hsound : s.keys.jobSound job) : (s.startBurn job).KeysAgree := by
  intro hrunning
  obtain ⟨hfloors, hslots, -⟩ := hs hrunning
  refine ⟨hfloors, hslots, fun b hb => ?_⟩
  obtain rfl := Option.some.inj hb
  exact (jobSound_congr rfl rfl job).mpr hsound

theorem place_keepsKeys (s : State) (code arg : Byte) (status : Status) (data : List Byte) : KeepsKeys s (s.place code arg status data) :=
  .of_view rfl

theorem takeRaise_keysAgree (hrecords : s.RecordsProper) (hs : s.KeysAgree) (kind : Byte) : (s.takeRaise kind).KeysAgree := by
  unfold State.takeRaise
  dsimp only
  refine (place_keepsKeys _ _ _ _ _).agrees ?_
  split
  · rename_i k t hstatus hkind htarget
    obtain ⟨k', t', hkind', htarget', hleast, hbelow⟩ := judgeRaise_started (Prod.ext hstatus htarget)
    obtain rfl : k' = k := Option.some.inj (hkind'.symm.trans hkind)
    obtain rfl : t = t' := Option.some.inj htarget'
    obtain ⟨⟨i, r, m, himage, -, rfl⟩, -⟩ := floorTarget_eq_some_iff.mp hleast
    exact keysAgree_startBurn hs ⟨hbelow, epoch_le_of_runningImage hrecords himage⟩
  · exact hs

theorem takeRevoke_keysAgree (hs : s.KeysAgree) (slot : Byte) : (s.takeRevoke slot).KeysAgree := by
  unfold State.takeRevoke
  dsimp only
  refine (place_keepsKeys _ _ _ _ _).agrees ?_
  split
  · rename_i k hstatus hslot
    obtain ⟨k', hslot', hactive⟩ := judgeRevoke_started hstatus
    obtain rfl : k' = k := Option.some.inj (hslot'.symm.trans hslot)
    exact keysAgree_startBurn hs hactive
  · exact hs

theorem runStart_keys (s : State) (cause : StartCause) :
    (s.runStart cause).store = s.store ∧ (s.runStart cause).keys = s.keys :=
  ⟨State.settle_store _, State.settle_keys _⟩

/-- A run start in a running part keeps the burn (R36). -/
theorem runStart_keepsKeys (hrunning : s.permit.running = true) (cause : StartCause) : KeepsKeys s (s.runStart cause) := by
  obtain ⟨hstore, hkeys⟩ := runStart_keys s cause
  exact ⟨hstore, by rw [hkeys], by rw [hkeys], by rw [hkeys], fun _ => hrunning⟩

theorem takeRequest_keysAgree (hrecords : s.RecordsProper) (hs : s.KeysAgree) (q : Request) : (s.takeRequest q).KeysAgree := by
  cases q with
  | report => exact KeepsKeys.agrees (s := s) (.of_view rfl) hs
  | peek | unknown => exact (place_keepsKeys s _ _ _ _).agrees hs
  | raiseFloor kind => exact takeRaise_keysAgree hrecords hs kind
  | revoke slot => exact takeRevoke_keysAgree hs slot
  | restart =>
    change s.takeRestart.KeysAgree
    unfold State.takeRestart
    split
    case h_1 h | h_2 h => exact ((runStart_keepsKeys (h ▸ rfl) .restart).trans (place_keepsKeys _ _ _ _ _)).agrees hs
    all_goals exact (place_keepsKeys s _ _ _ _).agrees hs
  | detail index =>
    change (s.takeDetail index).KeysAgree
    unfold State.takeDetail
    split <;> exact (place_keepsKeys s _ _ _ _).agrees hs
  | verify index =>
    change (s.takeVerify index).KeysAgree
    have hattempt : KeepsKeys s (s.newAttempt index.toNat) := .of_sansVerifier (newAttempt_sansVerifier s _)
    unfold State.takeVerify
    dsimp only
    split
    · exact (hattempt.settle.trans (place_keepsKeys _ _ _ _ _)).agrees hs
    · exact (place_keepsKeys s _ _ _ _).agrees hs

theorem takeBytes_keysAgree (hrecords : s.RecordsProper) (hs : s.KeysAgree) (bytes : List Byte) : (s.takeBytes bytes).KeysAgree := by
  unfold State.takeBytes
  split
  · exact takeRequest_keysAgree hrecords hs _
  · exact hs

theorem rise_keysAgree (hrecords : s.RecordsProper) (hs : s.KeysAgree) (x : Tx) : (s.rise x).KeysAgree := by
  have hend := (ended_keepsKeys s x).agrees hs
  unfold State.rise State.handRequest
  refine arbitrate_keysAgree ?_
  split
  · rename_i hconsumed
    obtain ⟨hhandling, -⟩ := hconsumed
    have hno : x.accepted = false := by simp [Tx.accepted, hhandling]
    have hended : ((s.judgeRise x).handCauses x).endTx.tables = (s.judgeRise x).tables :=
      (endTx_tables _).trans (handCauses_tables _ x)
    exact takeBytes_keysAgree (recordsProper_of_tables hended (((judgeRise_keeps s x).2 hno).records hrecords)) hend _
  · exact hend

theorem request_keysAgree (hrecords : s.RecordsProper) (hs : s.KeysAgree) (bytes : List Byte) : (s.request bytes).KeysAgree := by
  unfold State.request
  split
  · split
    · refine arbitrate_keysAgree (takeBytes_keysAgree ?_ ?_ bytes)
      · exact recordsProper_of_tables (settleMode_tables _) hrecords
      · exact settleMode_keysAgree hs
    · exact hs
  · split
    · exact rise_keysAgree hrecords hs _
    · exact hs

end

section
variable {s t : State}

theorem execUpstreamSelectRise_keysAgree (hrecords : s.RecordsProper) (hs : s.KeysAgree) {clocks : Fin 8}
    (h : execUpstreamSelectRise clocks s = .next t) : t.KeysAgree := by
  unfold execUpstreamSelectRise at h
  split at h
  · split at h <;> cases h
    · exact rise_keysAgree hrecords hs _
    · exact settleMode_keysAgree hs
    · exact settleMode_keysAgree hs
  · cases h
    exact hs

theorem execUnknownRequest_keysAgree (hrecords : s.RecordsProper) (hs : s.KeysAgree) {code : Byte}
    (h : execUnknownRequest code s = .next t) : t.KeysAgree := by
  unfold execUnknownRequest at h
  split at h <;> cases h
  · exact hs
  · exact request_keysAgree hrecords hs _

/-! ## Resets, load and provisioning -/

theorem execResetNAssert_keysAgree (hs : s.KeysAgree) (h : execResetNAssert s = .next t) : t.KeysAgree := by
  unfold execResetNAssert at h
  split at h <;> cases h
  · exact hs
  · exact keysAgree_of_not_running rfl

theorem execResetNRelease_keysAgree (hs : s.KeysAgree) {mode clkbyp cutReads : Bool}
    (h : execResetNRelease mode clkbyp cutReads s = .next t) : t.KeysAgree := by
  unfold execResetNRelease at h
  split at h <;> cases h <;> exact hs

/-- What a load reads from the store agrees with the store (R141, R142, R175). -/
theorem handOver_keysAgree (s : State) (c : LoadedConfig) (cause : StartCause) : ((s.handOver c).runStart cause).KeysAgree := by
  obtain ⟨hstore, hkeys⟩ := runStart_keys (s.handOver c) cause
  intro _
  rw [hstore, hkeys]
  refine ⟨fun k => ?_, fun i => ?_, nofun⟩ <;> simp [State.handOver, keysOf]

theorem afterLoad_keysAgree (s : State) : s.afterLoad.KeysAgree := by
  unfold State.afterLoad
  repeat' split
  case h_1 c _ => exact handOver_keysAgree s c _
  all_goals exact keysAgree_of_not_running rfl

theorem execLoadComplete_keysAgree (hs : s.KeysAgree) (h : execLoadComplete s = .next t) : t.KeysAgree := by
  unfold execLoadComplete at h
  split at h <;> cases h
  · exact hs
  · exact arbitrate_keysAgree (settleMode_keysAgree (afterLoad_keysAgree _))

/-- The burn of a provisioning goes on in the permit state it has, or ends in PROVISIONED. -/
theorem burnNext_keepsKeys (s : State) (want : Store) : KeepsKeys s (s.burnNext want).drive := by
  refine KeepsKeys.drive ?_
  unfold State.burnNext
  split
  · exact .of_view rfl
  · exact ⟨rfl, rfl, rfl, rfl, nofun⟩

theorem execBootstrapReadComplete_keysAgree (hs : s.KeysAgree) {image : List Byte} (h : execBootstrapReadComplete image s = .next t) :
    t.KeysAgree := by
  unfold execBootstrapReadComplete at h
  dsimp only at h
  split at h
  · split at h
    · cases h
      exact keysAgree_of_not_running rfl
    · split at h
      · cases h
        exact keysAgree_of_not_running rfl
      · obtain rfl := Host.Outcome.next.inj h
        exact (burnNext_keepsKeys _ _).agrees hs
  · cases h
    exact hs

/-- A provisioning burn runs in PROVISIONING, where nothing has to agree (R152). -/
theorem execProvisionCellBurnComplete_keysAgree (hports : s.PortsAgree) (hs : s.KeysAgree)
    (h : execProvisionCellBurnComplete s = .next t) : t.KeysAgree := by
  unfold execProvisionCellBurnComplete at h
  split at h
  · rename_i want cell left hburning
    obtain rfl := Host.Outcome.next.inj h
    have hpermit : s.permit = .provisioning := hports.provisioning_of_prov (by simp [hburning])
    exact (burnNext_keepsKeys _ want).agrees (keysAgree_of_not_running (congrArg PermitState.running hpermit))
  · cases h
    exact hs
  · cases h
    exact hs

/-! ## The completions of the key store -/

/-- A floor cell that completes raises floor and row by one together, a sound job having a cell left to burn (R142, R146). -/
theorem floorCell_keysAgree (hs : s.KeysAgree) {k : Fin 8} {target left : Nat} (hburn : s.keys.burn = some ⟨.floor k target, left⟩)
    (h : exec .floorCellComplete s = .next t) : t.KeysAgree := by
  intro hrunning
  have hbefore : s.permit.running = true :=
    (execFloorCellComplete_move h).permit.elim (fun hsame => hsame ▸ hrunning) And.left
  obtain ⟨hfloors, hslots, hjob⟩ := hs hbefore
  obtain ⟨hbelow, htarget⟩ : s.keys.floors[k] < target ∧ target ≤ 63 := hjob _ hburn
  obtain ⟨p, hnext, hp⟩ := rowNext_of_not_full (row := s.store.floors[k]) (by rw [← hfloors]; omega)
  obtain rfl := Host.Outcome.next.inj ((exec_floorCellComplete hburn hnext).symm.trans h)
  have hself (n : Nat) : (s.keys.floors.set k n)[k] = n := Vector.getElem_set_self _
  refine ⟨fun k' => ?_, hslots, fun b hb => ?_⟩
  · by_cases hk : k' = k
    · subst hk
      exact (hself _).trans (by rw [hfloors, rowFloor_burn hp])
    · have hother : (s.keys.floors.set k (s.keys.floors[k] + 1))[k'] = s.keys.floors[k'] :=
        Vector.getElem_set_ne k.isLt k'.isLt fun hval => hk (Fin.ext hval.symm)
      exact hother.trans (by rw [hfloors, rowFloor_burn_other s.store p hk])
  · dsimp only at hb
    split at hb
    · cases hb
    · rename_i hmore
      obtain rfl := Option.some.inj hb
      exact ⟨(hself _).trans_lt (Nat.lt_of_not_le hmore), htarget⟩

/-- A revocation cell that completes makes slot and cell REVOKED together, a sound job being that of an ACTIVE slot (R149). -/
theorem revokeCell_keysAgree (hs : s.KeysAgree) {slot : Fin 4} {left : Nat} (hburn : s.keys.burn = some ⟨.revoke slot, left⟩)
    (h : exec .revokeCellComplete s = .next t) : t.KeysAgree := by
  obtain rfl := Host.Outcome.next.inj ((exec_revokeCellComplete hburn).symm.trans h)
  intro hrunning
  obtain ⟨hfloors, hslots, hjob⟩ := hs hrunning
  have hactive : s.keys.slots[slot].state = .active := hjob _ hburn
  refine ⟨hfloors, fun i => ?_, nofun⟩
  by_cases hi : i = slot
  · subst hi
    rw [keyState_burn_revoked (keyState_eq_active ((hslots i).symm.trans hactive))]
    exact congrArg KeySlot.state (Vector.getElem_set_self _)
  · rw [keyState_burn_other s.store hi, ← hslots i]
    exact congrArg KeySlot.state (Vector.getElem_set_ne slot.isLt i.isLt fun hval => hi (Fin.ext hval.symm))

theorem execFloorCellComplete_keysAgree (hs : s.KeysAgree) (h : execFloorCellComplete s = .next t) : t.KeysAgree := by
  have hexec : exec .floorCellComplete s = .next t := h
  unfold execFloorCellComplete at h
  split at h
  · rename_i hburn
    exact floorCell_keysAgree hs hburn hexec
  · cases h
    exact hs

theorem execRevokeCellComplete_keysAgree (hs : s.KeysAgree) (h : execRevokeCellComplete s = .next t) : t.KeysAgree := by
  have hexec : exec .revokeCellComplete s = .next t := h
  unfold execRevokeCellComplete at h
  split at h
  · rename_i hburn
    exact revokeCell_keysAgree hs hburn hexec
  · cases h
    exact hs

/-! ## The step -/

theorem exec_keysAgree {c : Instr} (hports : s.PortsAgree) (hrecords : s.RecordsProper) (hs : s.KeysAgree) (h : exec c s = .next t) :
    t.KeysAgree := by
  have hrequest {bytes : List Byte} (h : Host.Outcome.next (s.request bytes) = (.next t : Result)) : t.KeysAgree := by
    cases h
    exact request_keysAgree hrecords hs bytes
  cases c with
  | powerOn =>
    cases h
    exact keysAgree_of_not_running rfl
  | resetNAssert => exact execResetNAssert_keysAgree hs h
  | resetNRelease => exact execResetNRelease_keysAgree hs h
  | loadComplete => exact execLoadComplete_keysAgree hs h
  | bootstrapReadComplete => exact execBootstrapReadComplete_keysAgree hs h
  | provisionCellBurnComplete => exact execProvisionCellBurnComplete_keysAgree hports hs h
  | upstreamSelectAssert => exact (execUpstreamSelectAssert_keepsKeys h).agrees hs
  | instructionByteComplete => exact (execInstructionByteComplete_keepsKeys h).agrees hs
  | addressComplete => exact (execAddressComplete_keepsKeys h).agrees hs
  | dummyCountComplete => exact (execDummyCountComplete_keepsKeys h).agrees hs
  | upstreamDataByte => exact (execUpstreamDataByte_keepsKeys h).agrees hs
  | upstreamSelectRise => exact execUpstreamSelectRise_keysAgree hrecords hs h
  | report | peek | detail | verify | restart | raiseFloor | revoke => exact hrequest h
  | fetch => exact (execFetch_keepsKeys h).agrees hs
  | unknownRequest => exact execUnknownRequest_keysAgree hrecords hs h
  | burstByteReceived => exact (execBurstByteReceived_keepsKeys h).agrees hs
  | signatureCheckComplete => exact (execSignatureCheckComplete_keepsKeys h).agrees hs
  | deadlineExpiry => exact (execDeadlineExpiry_keepsKeys h).agrees hs
  | holdPulseExpiry => exact (execHoldPulseExpiry_keepsKeys h).agrees hs
  | wakeComplete => exact (execWakeComplete_keepsKeys h).agrees hs
  | wakeWaitEnd => exact (execWakeWaitEnd_keepsKeys h).agrees hs
  | statusPollComplete => exact (execStatusPollComplete_keepsKeys h).agrees hs
  | pollWaitEnd => exact (execPollWaitEnd_keepsKeys h).agrees hs
  | writeDisableComplete => exact (execWriteDisableComplete_keepsKeys h).agrees hs
  | sleepComplete => exact (execSleepComplete_keepsKeys h).agrees hs
  | floorCellComplete => exact execFloorCellComplete_keysAgree hs h
  | revokeCellComplete => exact execRevokeCellComplete_keysAgree hs h

end

/-- Settles O60: most of an event leaves the key store and the cells (`KeepsKeys`); the requests start sound jobs only, and the completions,
the load and the resets set both together. -/
theorem everyStepKeepsTheKeyStoreInAgreement : Obligations.EveryStepKeepsTheKeyStoreInAgreement := by
  intro s t hports hrecords hs h
  unfold step at h
  split at h
  · cases h
    exact ((elapse_keepsKeys s 1).same rfl).agrees hs
  · rename_i c rest _
    have hrest : KeepsKeys s { s with pending := rest } := .of_view rfl
    exact exec_keysAgree (s := { s with pending := rest }) hports hrecords (hrest.agrees hs) h

end Sys2Proof.Machine
end

section
/-! PROOFS. The conditions of the permit state and the hold line (R153, R156, R157): in each permit state, over a table whose pairs agree on
gate and role, and at the end of the hold pulse. -/

namespace Sys2Proof.Machine

/-! ## The conditions in each permit state -/

theorem holdCondition_of_verifying {s : State} (h : s.permit = .verifying) : s.holdCondition = false ↔ s.HeldPassed := by
  rw [← heldPassed_iff]
  simp [State.holdCondition, h]

/-- Settles O50: the model's conditions are those of R153 and R156, permit state by permit state. -/
theorem thePermitAndHoldConditions : Obligations.ThePermitAndHoldConditions := by
  intro s
  refine ⟨permitCondition_iff s, denialCondition_iff s, fun h => ?_, fun h => ?_, holdCondition_of_verifying, fun h => ?_⟩
  · simp only [List.mem_cons, List.not_mem_nil, or_false] at h
    obtain h | h | h | h := h <;> simp only [State.holdCondition, h]
  · obtain h | h := h <;> simp only [State.holdCondition, h]
  · simp [State.holdCondition, h]

/-! ## The hold line in VERIFYING -/

/-- A released line has no hold condition and no pulse (R156, R157). -/
theorem State.OutputsAgree.released {s : State} (h : s.OutputsAgree) (hline : s.pins.ctrlHold = false) :
    s.holdCondition = false ∧ s.pulse.isRunning = false := by
  obtain ⟨-, hhold, -⟩ := h
  exact Bool.or_eq_false_iff.mp (hhold.symm.trans hline)

/-- In a pair that has passed, the slot whose effective gate is HOLD is the selected one, and the pair is a held image (R78, R156). -/
theorem isVerified_of_held_slot {s : State} {i j : Nat} {p : Pair} (hheld : s.HeldPassed) (hp : s.pair j = some p)
    (hrole : s.pairRole p = some .required ∨ s.pairRole p = some .optional)
    (hgate : p.escalated = true ∨ s.pairGate p = some .hold) (hslot : p.selection = .none ∨ p.selected = some i) :
    s.isVerified i = true := by
  obtain ⟨-, hpairs⟩ := hheld
  obtain ⟨k, hk, hverified⟩ := hpairs j p hp hrole hgate
  obtain hnone | hi := hslot
  · simp [Pair.selected, hnone, Selection.slot] at hk
  · obtain rfl : k = i := Option.some.inj (hk.symm.trans hi)
    exact hverified

/-- Settles O51: an unpaired region is a held image itself, a slot is one by its pair's gate or by the escalation. -/
theorem theHoldLineIsReleasedOnlyOnceTheHeldImagesPass : Obligations.TheHoldLineIsReleasedOnlyOnceTheHeldImagesPass := by
  intro s i r hagree hverifying hline hr hrole hgate htable
  obtain ⟨hcondition, -⟩ := hagree.released hline
  have hheld : s.HeldPassed := (holdCondition_of_verifying hverifying).mp hcondition
  obtain ⟨hof, hg⟩ | ⟨j, p, hof, hp, hcases⟩ := hgate
  · obtain ⟨hregions, -⟩ := hheld
    exact hregions i r hr hrole hg.symm hof
  · obtain ⟨hpairGate, hpairRole⟩ := htable j p hof hp
    rw [← hpairRole] at hrole
    have hown (hg : Gate.hold = r.gate) : p.escalated = true ∨ s.pairGate p = some .hold := .inr (hg ▸ hpairGate)
    obtain ⟨hnone, -, hg⟩ | ⟨hnone, hescalated, -⟩ | ⟨-, hi, -, hg⟩ | ⟨-, hi, hescalated, -⟩ | ⟨-, -, hg⟩ := hcases
    · exact isVerified_of_held_slot hheld hp hrole (hown hg) (.inl hnone)
    · exact isVerified_of_held_slot hheld hp hrole (.inl hescalated) (.inl hnone)
    · exact isVerified_of_held_slot hheld hp hrole (hown hg) (.inr hi)
    · exact isVerified_of_held_slot hheld hp hrole (.inl hescalated) (.inr hi)
    · cases hg

/-! ## The end of the hold pulse -/

/-- Outputs in agreement are driven anew to what they are, but for CTRL_HOLD_N. -/
theorem drive_pins_of_agree {s u : State} (h : s.OutputsAgree) (hpermit : u.permit = s.permit) (hcfg : u.cfg = s.cfg)
    (halerts : u.alerts = s.alerts) :
    u.drive.pins = ⟨u.holdCondition || u.nextPulse.isRunning, s.pins.printPermit, s.pins.alert, s.pins.protect⟩ := by
  obtain ⟨hprint, -, halert, hprotect⟩ := h
  rw [hprint, halert, hprotect, ← hpermit, ← hcfg, ← halerts, ← beq_eq_decide, decide_not, ← beq_eq_decide]
  rfl

/-- The state in which the hold pulse has ended, its outputs not driven yet. -/
def State.pulseEnded (s : State) (left : Nat) : State := { s.elapse left with pulse := .stopped }

theorem exec_holdPulseExpiry {s : State} {left : Nat} (hpulse : s.pulse = .running left) :
    exec .holdPulseExpiry s = .next (s.pulseEnded left).drive := by
  show execHoldPulseExpiry s = _
  simp only [execHoldPulseExpiry, hpulse]
  rfl

/-- On an asserted line no pulse starts. -/
theorem pulseEnded_nextPulse {s : State} (left : Nat) (hline : s.pins.ctrlHold = true) : (s.pulseEnded left).nextPulse = .stopped :=
  drive_pulse_of_asserted (s.pulseEnded left) hline

/-- Settles O52: with the pulse running CTRL_HOLD_N is asserted, so the outputs driven anew start no other pulse. -/
theorem theHoldPulseEnds : Obligations.TheHoldPulseEnds := by
  intro s left hpulse hagree
  obtain ⟨-, hhold, -⟩ := id hagree
  have hline : s.pins.ctrlHold = true := by simp [hhold, hpulse, Pulse.isRunning]
  have hstays := pulseEnded_nextPulse left hline
  have hpins : (s.pulseEnded left).drive.pins = { s.pins with ctrlHold := s.holdCondition } := by
    rw [drive_pins_of_agree (u := s.pulseEnded left) hagree rfl rfl rfl, hstays]
    exact congrArg (Pins.mk · _ _ _) (Bool.or_false _)
  rw [exec_holdPulseExpiry hpulse]
  exact congrArg₂ (fun pu o => Host.Outcome.next { s.elapse left with pulse := pu, pins := o }) hstays hpins

end Sys2Proof.Machine
end

section
/-! PROOFS. What PERMITTED rests on (R154) is not kept by every step: the agreement asks nothing of the runtime records of the regions that
are verifiable, and a VERIFY of one without a record queues an attempt that is not QUEUED. -/

namespace Sys2Proof.Machine

/-- A part in VERIFYING that listens, every context held, and of its one region, verifiable and OPTIONAL, no runtime record: a VERIFY of
that region waits to be taken. No run of the part leads here, since a run start sets a record of each verifiable region (R36). -/
def State.recordless : State :=
  { State.reset with
    load := .none, resetN := false, permit := .verifying, up := ⟨false, .relaying, none, none⟩
    regions := [⟨0, 8192, .fill, .free, some .optional, some 0, some 0, none, none⟩]
    contexts := Vector.replicate 4 (some ⟨.region 0, .header, none, [], 0, 0, 0⟩)
    pending := [.verify 0] }

theorem recordless_listening : State.recordless.Listening := ⟨rfl, rfl⟩

theorem recordless_portsAgree : State.recordless.PortsAgree :=
  ⟨⟨nofun, nofun⟩, ⟨nofun, nofun⟩, fun _ => rfl, fun _ => rfl, fun h => absurd rfl h, nofun, fun h => absurd rfl h, ⟨nofun, nofun⟩⟩

/-- Every context is held, by region 0. -/
theorem recordless_ctx (c : Fin 4) : State.recordless.ctx c = some ⟨.region 0, .header, none, [], 0, 0, 0⟩ := by
  simp [State.ctx, State.recordless]

theorem recordless_permitSound : State.recordless.PermitSound := by
  have hcalm : State.recordless.up.tx = none := rfl
  refine ⟨⟨fun i r hr hrole _ => ?_, nofun⟩, ⟨.nil, nofun⟩, ⟨fun c z j hz howner => ?_, fun c _ z _ j hz howner => ?_⟩,
    fun x lo n hx => absurd (hcalm.symm.trans hx) nofun, fun h => absurd h nofun⟩
  · obtain rfl : r = _ := (List.mem_singleton.mp (List.mem_of_getElem? hr))
    cases hrole
  all_goals
    obtain rfl := Option.some.inj ((recordless_ctx c).symm.trans hz)
    cases howner

/-- The VERIFY is STARTED, the region being an allowed target whose attempt is not in progress (R56, R57). -/
theorem recordless_judgeVerify : State.recordless.judgeVerify 0 = .started := rfl

/-- The state once the VERIFY is taken and its attempt has joined the queue. -/
def State.recordlessAttempt : State := ({ State.recordless with pending := [] } : State).served.newAttempt 0

theorem step_recordless : ∃ data, step State.recordless
    = .next (State.recordlessAttempt.settle.place 0x04 0 .started data).arbitrate :=
  ⟨_, exec_verify_of_started (s := { State.recordless with pending := [] }) (index := 0) recordless_listening recordless_judgeVerify⟩

/-- With no context free the attempt waits in the queue. -/
theorem recordlessAttempt_grants : State.recordlessAttempt.grants = State.recordlessAttempt :=
  grants_of_no_free ((freeCtx_none_iff _).mpr fun c => (congrArg Option.isSome (recordless_ctx c) :))

/-- Refutes O55: of its three claims the second fails. From `State.recordless`, where the ports agree and `PermitSound` holds, the step
takes a VERIFY that enters region 0 into the queue (R58), but has no runtime record to set to QUEUED, so that the queue is not sound. -/
theorem not_thePrintPermitIsEarned : ¬ Obligations.ThePrintPermitIsEarned := by
  rintro ⟨-, hkeeps, -⟩
  obtain ⟨data, hstep⟩ := step_recordless
  obtain ⟨-, ⟨-, hqueued⟩, -⟩ := hkeeps _ _ recordless_portsAgree recordless_permitSound hstep
  have hwaits : Owner.region 0 ∈ (State.recordlessAttempt.settle.place 0x04 0 .started data).arbitrate.queue := by
    rw [State.arbitrate_queue, State.place_queue, settle_queue, recordlessAttempt_grants]
    exact List.mem_singleton_self _
  obtain ⟨hstate, -⟩ := hqueued _ hwaits
  obtain ⟨y, hy, -⟩ := rstate_eq_some_iff.mp (hstate 0 (List.mem_singleton_self 0))
  rw [rt_started (index := 0), recordlessAttempt_grants] at hy
  cases hy

end Sys2Proof.Machine
end

section
/-! PROOFS. The records that the permit controller reads and writes (R152 to R161): what leaves them all, what may come before the outputs
are driven or an event is closed, and the kinds of step there are. -/

namespace Sys2Proof.Machine

/-! ## The permit controller's view -/

/-- What the permit controller reads and writes: of the report the run number and the duration, of the runtime records the states. -/
structure Control where
  permit : PermitState
  pins : Pins
  alerts : Alerts
  cfg : Cfg
  pulse : Pulse
  runNumber : BitVec 16
  run : Option (BitVec 16 × Option Nat)
  runElapsed : Nat
  deadline : Option Nat
  regions : List Region
  pairs : List Pair
  recoverySwap : Bool
  states : Nat → Option RState

/-- The run number and the duration of the report (R160). -/
def State.run (s : State) : Option (BitVec 16 × Option Nat) := s.report.map fun r => (r.runNumber, r.duration)

def State.control (s : State) : Control :=
  { permit := s.permit, pins := s.pins, alerts := s.alerts, cfg := s.cfg, pulse := s.pulse, runNumber := s.runNumber, run := s.run
    runElapsed := s.runElapsed, deadline := s.deadline, regions := s.regions, pairs := s.pairs, recoverySwap := s.recoverySwap
    states := s.rstate }

/-- What may come before the outputs are driven, or an event of the run logic is closed: work of the verifier, an alert cause other than
DENIED, the end of the deadline or of the hold pulse. -/
structure Works (s t : State) : Prop where
  permit : t.permit = s.permit
  pins : t.pins = s.pins
  pulse : t.pulse = s.pulse ∨ t.pulse = .stopped
  denied : t.alerts.denied = s.alerts.denied
  runNumber : t.runNumber = s.runNumber
  run : t.run = s.run
  deadline : t.deadline = s.deadline ∨ t.deadline = none

/-- The commands that may bring a RESTART (R164, R168): the request itself, and the select rise that ends its transaction. -/
def bringsRestart (c : Instr) : Prop := c = .restart ∨ ∃ clocks, c = .upstreamSelectRise clocks

/-- Command `c` enters permit state `p`, in which the part does not run, from `s`: the load completes (R175), or the provisioning ends
(R177). -/
def State.leaves (s : State) (c : Instr) (p : PermitState) : Prop :=
  (c = .loadComplete ∧ s.load ≠ .none)
    ∨ (s.prov ≠ .idle ∧ (p = .provisioned ∨ p = .fault) ∧ ((∃ image, c = .bootstrapReadComplete image) ∨ c = .provisionCellBurnComplete))

/-- The kinds of step that a command `c` is to the permit controller, by how its event closes: not at all, with the outputs driven, with the
run logic settled, with a run start by RESTART or by the load, with the entry to a permit state in which the part does not run, with a
reset. What follows leaves the view. -/
inductive ControlStep (c : Instr) (s t : State) : Prop
  | quiet (h : t.control = s.control)
  | driven (m : State) (hm : Works s m) (h : t.control = m.drive.control)
  | settled (m : State) (hm : Works s m) (h : t.control = m.settle.control)
  | restarted (m : State) (hm : Works s m) (hended : s.permit = .permitted ∨ s.permit = .denied) (hc : bringsRestart c)
      (h : t.control = (m.runStart .restart).control)
  | loaded (m : State) (cause : StartCause) (hc : c = .loadComplete) (hload : s.load ≠ .none) (h : t.control = (m.runStart cause).control)
  | left (m : State) (hc : s.leaves c m.permit) (hcalm : m.permit.running = false) (hdenied : m.alerts.denied = s.alerts.denied)
      (hdeadline : m.deadline = s.deadline) (h : t.control = m.drive.control)
  | reset (n : BitVec 16) (hc : (∃ mode clkbyp cut, c = .powerOn mode clkbyp cut) ∨ c = .resetNAssert)
      (h : t.control = ({ State.reset with runNumber := n } : State).control)

section
variable {s t u : State} {c : Instr}

theorem permit_of_control (h : t.control = s.control) : t.permit = s.permit := congrArg Control.permit h

theorem pulse_of_control (h : t.control = s.control) : t.pulse = s.pulse := congrArg Control.pulse h

theorem Works.of_control (h : t.control = s.control) : Works s t :=
  ⟨permit_of_control h, congrArg Control.pins h, .inl (pulse_of_control h), congrArg (·.alerts.denied) h,
    congrArg Control.runNumber h, congrArg Control.run h, .inl (congrArg Control.deadline h)⟩

theorem Works.trans (h : Works s t) (h' : Works t u) : Works s u where
  permit := h'.permit.trans h.permit
  pins := h'.pins.trans h.pins
  pulse := h'.pulse.elim (fun he => he ▸ h.pulse) .inr
  denied := h'.denied.trans h.denied
  runNumber := h'.runNumber.trans h.runNumber
  run := h'.run.trans h.run
  deadline := h'.deadline.elim (fun he => he ▸ h.deadline) .inr

/-- The work of the verifier. -/
theorem Works.of_sansVerifier (h : t.sansVerifier = s.sansVerifier) : Works s t :=
  have hsans := Works.of_control (congrArg State.control h)
  ⟨hsans.permit, hsans.pins, hsans.pulse, hsans.denied, hsans.runNumber, hsans.run, hsans.deadline⟩

theorem expire_works (s : State) : Works s s.expire := by
  rw [expire_changesVerifier s]
  exact ⟨rfl, rfl, .inl rfl, rfl, rfl, rfl, .inr rfl⟩

theorem Works.drive (h : Works s t) : ControlStep c s t.drive := .driven t h rfl

theorem Works.settle (h : Works s t) : ControlStep c s t.settle := .settled t h rfl

/-- What follows an event and leaves the view. -/
theorem ControlStep.next (h : ControlStep c s t) (h' : u.control = t.control) : ControlStep c s u := by
  cases h with
  | quiet h => exact .quiet (h'.trans h)
  | driven m hm h => exact .driven m hm (h'.trans h)
  | settled m hm h => exact .settled m hm (h'.trans h)
  | restarted m hm hended hc h => exact .restarted m hm hended hc (h'.trans h)
  | loaded m cause hc hload h => exact .loaded m cause hc hload (h'.trans h)
  | left m hc hcalm hdenied hdeadline h => exact .left m hc hcalm hdenied hdeadline (h'.trans h)
  | reset n hc h => exact .reset n hc (h'.trans h)

end

end Sys2Proof.Machine
end

section
/-! PROOFS. What each kind of step does to the outputs, to the hold pulse and to the records of the run (R52 to R54, R155 to R161). -/

namespace Sys2Proof.Machine

/-! ## The conditions read the tables and the states of the images -/

/-- The tables and the states of the images are the same. -/
structure SameImages (s t : State) : Prop where
  regions : t.regions = s.regions
  pairs : t.pairs = s.pairs
  states : t.rstate = s.rstate

section
variable {s t : State}

theorem SameImages.of_control (h : t.control = s.control) : SameImages s t :=
  ⟨congrArg Control.regions h, congrArg Control.pairs h, congrArg Control.states h⟩

theorem SameImages.isVerified (h : SameImages s t) : t.isVerified = s.isVerified := by
  funext i
  rw [State.isVerified, h.states, State.isVerified]

theorem SameImages.permitCondition (h : SameImages s t) : t.permitCondition = s.permitCondition := by
  simp only [State.permitCondition, State.unpairedAll, State.selectionVerified, State.pairOf, State.pairRole, State.region,
    h.regions, h.pairs, h.isVerified]

theorem SameImages.denialCondition (h : SameImages s t) : t.denialCondition = s.denialCondition := by
  simp only [State.denialCondition, State.unpairedAll, State.selectionVerified, State.pairOf, State.pairRole, State.region,
    h.regions, h.pairs, h.states, h.isVerified]

theorem SameImages.heldPassed (h : SameImages s t) : t.heldPassed = s.heldPassed := by
  simp only [State.heldPassed, State.unpairedAll, State.selectionVerified, State.pairOf, State.pairRole, State.pairHeld,
    State.pairGate, State.region, h.regions, h.pairs, h.isVerified]

theorem SameImages.requiredPassed (h : SameImages s t) : t.RequiredPassed ↔ s.RequiredPassed := by
  rw [← permitCondition_iff, ← permitCondition_iff, h.permitCondition]

theorem SameImages.requiredFailed (h : SameImages s t) : t.RequiredFailed ↔ s.RequiredFailed := by
  rw [← denialCondition_iff, ← denialCondition_iff, h.denialCondition]

theorem holdCondition_congr (h : t.control = s.control) : t.holdCondition = s.holdCondition := by
  have hpermit : t.permit = s.permit := permit_of_control h
  have hswap : t.recoverySwap = s.recoverySwap := congrArg Control.recoverySwap h
  simp only [State.holdCondition, hpermit, hswap, (SameImages.of_control h).heldPassed]

end

/-! ## The outputs -/

section
variable {s t : State}

theorem outputsAgree_of_control (h : t.control = s.control) (hs : s.OutputsAgree) : t.OutputsAgree := by
  have hpins : t.pins = s.pins := congrArg Control.pins h
  have hpermit : t.permit = s.permit := permit_of_control h
  have hpulse : t.pulse = s.pulse := pulse_of_control h
  have hcfg : t.cfg = s.cfg := congrArg Control.cfg h
  have halerts : t.alerts = s.alerts := congrArg Control.alerts h
  simpa only [State.OutputsAgree, hpins, hpermit, hpulse, hcfg, halerts, holdCondition_congr h] using hs

theorem settle_agrees (s : State) : s.settle.OutputsAgree := drive_agrees _

theorem reset_outputsAgree (n : BitVec 16) : ({ State.reset with runNumber := n } : State).OutputsAgree := ⟨rfl, rfl, rfl, rfl⟩

/-- Every event that changes what the outputs follow ends by driving them. -/
theorem ControlStep.outputsAgree {c : Instr} (h : ControlStep c s t) (hs : s.OutputsAgree) : t.OutputsAgree := by
  cases h with
  | quiet h => exact outputsAgree_of_control h hs
  | driven m _ h => exact outputsAgree_of_control h (drive_agrees m)
  | settled m _ h => exact outputsAgree_of_control h (settle_agrees m)
  | restarted m _ _ _ h => exact outputsAgree_of_control h (settle_agrees _)
  | loaded m _ _ _ h => exact outputsAgree_of_control h (settle_agrees _)
  | left m _ _ _ _ h => exact outputsAgree_of_control h (drive_agrees m)
  | reset n _ h => exact outputsAgree_of_control h (reset_outputsAgree n)

end

/-! ## The hold pulse -/

/-- CTRL_HOLD_N is released and no pulse runs. -/
def State.Released (s : State) : Prop := s.pins.ctrlHold = false ∧ s.pulse.isRunning = false

/-- CTRL_HOLD_N is released and no pulse runs, or it is asserted and the pulse has all its time to run. -/
def State.HoldTimed (s : State) : Prop :=
  s.Released ∨ (s.pins.ctrlHold = true ∧ s.pulse = .running (1000 * s.cfg.holdPulse))

section
variable {s t : State}

theorem holdTimed_of_control (h : t.control = s.control) (hs : s.HoldTimed) : t.HoldTimed := by
  have hpins : t.pins = s.pins := congrArg Control.pins h
  have hpulse : t.pulse = s.pulse := pulse_of_control h
  have hcfg : t.cfg = s.cfg := congrArg Control.cfg h
  simpa only [State.HoldTimed, State.Released, hpins, hpulse, hcfg] using hs

theorem Works.released (h : Works s t) (hs : s.Released) : t.Released := by
  obtain ⟨hline, hpulse⟩ := hs
  refine ⟨h.pins ▸ hline, ?_⟩
  obtain he | he := h.pulse <;> rw [he]
  · exact hpulse
  · rfl

/-- Driving a released line leaves it, or asserts it and starts the pulse in full; driving an asserted one leaves its pulse. -/
theorem drive_holdTimed (h : s.HoldTimed) : s.drive.HoldTimed := by
  obtain ⟨hline, hpulse⟩ | ⟨hline, hpulse⟩ := h
  · cases hc : s.holdCondition with
    | true => exact .inr ⟨by simp [hc], drive_pulse s hline hc⟩
    | false => exact .inl (by simp [State.Released, State.nextPulse, hc, hpulse])
  · have hstays : s.drive.pulse = s.pulse := drive_pulse_of_asserted s hline
    refine .inr ⟨?_, hstays.trans hpulse⟩
    rw [State.drive_pins, ← State.drive_pulse, hstays, hpulse]
    exact Bool.or_true _

theorem settle_holdTimed (h : s.HoldTimed) : s.settle.HoldTimed :=
  drive_holdTimed (by simpa [State.HoldTimed, State.Released] using h)

theorem runStart_holdTimed (h : s.Released) (cause : StartCause) : (s.runStart cause).HoldTimed :=
  settle_holdTimed (drive_holdTimed (s := s.newRun cause) (.inl h))

end

/-! ## The records of the run -/

theorem runAgrees_iff (s : State) : s.RunAgrees ↔
    (s.deadline ≠ none → s.permit = .verifying)
      ∧ (s.permit.running = true → ∃ d, s.run = some (s.runNumber, d) ∧ (d.isSome = true ↔ s.permit ≠ .verifying))
      ∧ (s.alerts.denied = true ↔ s.permit = .denied) := by
  have hrun (n : BitVec 16) (P : Option Nat → Prop) :
      (∃ d, s.run = some (n, d) ∧ P d) ↔ ∃ r, s.report = some r ∧ r.runNumber = n ∧ P r.duration := by
    simp only [State.run, Option.map_eq_some_iff, Prod.mk.injEq]
    exact ⟨fun ⟨_, ⟨r, hr, hn, hd⟩, hp⟩ => ⟨r, hr, hn, hd ▸ hp⟩, fun ⟨r, hr, hn, hp⟩ => ⟨_, ⟨r, hr, hn, rfl⟩, hp⟩⟩
  rw [State.RunAgrees, hrun]

section
variable {s t : State}

theorem runAgrees_of_control (h : t.control = s.control) (hs : s.RunAgrees) : t.RunAgrees := by
  have hpermit : t.permit = s.permit := permit_of_control h
  have hdeadline : t.deadline = s.deadline := congrArg Control.deadline h
  have halerts : t.alerts = s.alerts := congrArg Control.alerts h
  have hrun : t.run = s.run := congrArg Control.run h
  have hnumber : t.runNumber = s.runNumber := congrArg Control.runNumber h
  simpa only [runAgrees_iff, hpermit, hdeadline, halerts, hrun, hnumber] using hs

theorem Works.runAgrees (h : Works s t) (hs : s.RunAgrees) : t.RunAgrees := by
  rw [runAgrees_iff] at hs ⊢
  obtain ⟨hdeadline, hrun, hdenied⟩ := hs
  rw [h.permit, h.run, h.runNumber, h.denied]
  refine ⟨fun hd => hdeadline fun hnone => ?_, hrun, hdenied⟩
  obtain he | he := h.deadline <;> simp_all

/-- A run that ends stops its deadline and has its duration; DENIED joins the alert causes in DENIED alone (R54, R161). -/
theorem endRun_runAgrees (hs : s.RunAgrees) (hv : s.permit = .verifying) {p : PermitState} (hp : p ≠ .verifying) :
    (s.endRun p).RunAgrees := by
  obtain ⟨-, hrun, hdenied⟩ := hs
  obtain ⟨r, hr, hnumber, -⟩ := hrun (by rw [hv]; rfl)
  have hnot : s.alerts.denied = false := Bool.eq_false_iff.mpr fun h => by cases hv.symm.trans (hdenied.mp h)
  refine ⟨fun h => absurd rfl h, fun _ => ⟨{ r with duration := some s.runDuration }, ?_, hnumber, iff_of_true rfl hp⟩, ?_⟩
  · simp [hr]
  · simp [hnot]

theorem settle_runAgrees (hs : s.RunAgrees) : s.settle.RunAgrees := by
  have hchecked : s.grants.takeCheck.RunAgrees := by
    rw [takeCheck_eq, grants_eq]
    exact hs
  have hdecided : s.grants.takeCheck.decidePermit.RunAgrees := by
    obtain ⟨he, -⟩ | ⟨hv, -, he⟩ | ⟨hv, -, -, he⟩ := decidePermit_cases s.grants.takeCheck <;> rw [he]
    · exact hchecked
    · exact endRun_runAgrees hchecked hv nofun
    · exact endRun_runAgrees hchecked hv nofun
  show s.grants.takeCheck.decidePermit.decideRecovery.RunAgrees
  rw [decideRecovery_eq]
  exact hdecided

/-- A run begins in VERIFYING with its report, which has no duration yet (R36). -/
theorem newRun_runAgrees (s : State) (cause : StartCause) : (s.newRun cause).drive.RunAgrees :=
  ⟨fun _ => rfl, fun _ => ⟨_, rfl, rfl, iff_of_false nofun fun h => h rfl⟩, iff_of_false nofun nofun⟩

theorem runStart_runAgrees (s : State) (cause : StartCause) : (s.runStart cause).RunAgrees := settle_runAgrees (newRun_runAgrees s cause)

/-- The run has ended in the present event (R54, R153): PERMITTED is earned, DENIED has a cause, the deadline is stopped, the duration is
that of the run so far and RESULT_UNREAD is set. -/
def State.RunEnded (s : State) : Prop :=
  (s.permit = .permitted → s.RequiredPassed) ∧ (s.permit = .denied → s.RequiredFailed ∧ ¬ s.RequiredPassed)
    ∧ s.deadline = none ∧ s.alerts.resultUnread = true ∧ s.run = some (s.runNumber, some (min (s.runElapsed / 1000) 65535))

theorem runEnded_of_control (h : t.control = s.control) (hs : s.RunEnded) : t.RunEnded := by
  have himages := SameImages.of_control h
  have hpermit : t.permit = s.permit := permit_of_control h
  have hdeadline : t.deadline = s.deadline := congrArg Control.deadline h
  have halerts : t.alerts = s.alerts := congrArg Control.alerts h
  have hrun : t.run = s.run := congrArg Control.run h
  have hnumber : t.runNumber = s.runNumber := congrArg Control.runNumber h
  have helapsed : t.runElapsed = s.runElapsed := congrArg Control.runElapsed h
  simpa only [State.RunEnded, himages.requiredPassed, himages.requiredFailed, hpermit, hdeadline, halerts, hrun, hnumber, helapsed]
    using hs

/-- The decision and what follows it in the event leave the tables and the states. -/
theorem settle_images (s : State) : SameImages s.grants.takeCheck s.settle :=
  ⟨by simp, by simp, funext fun i => congrArg (Option.map Runtime.state) (rt_congr (by simp [settle_runtime]) i)⟩

/-- The permit state that settling reaches from VERIFYING, and why (R153). -/
theorem settle_decision (hv : s.permit = .verifying) :
    s.settle.permit = .verifying
      ∨ (s.settle.permit = .permitted ∧ s.settle.RequiredPassed)
      ∨ (s.settle.permit = .denied ∧ s.settle.RequiredFailed ∧ ¬ s.settle.RequiredPassed) := by
  have hchecked : s.grants.takeCheck.permit = .verifying := by simpa using hv
  rw [settle_permit, (settle_images s).requiredPassed, (settle_images s).requiredFailed, ← permitCondition_iff, ← denialCondition_iff]
  obtain ⟨he, -⟩ | ⟨-, hpassed, he⟩ | ⟨-, hnot, hfailed, he⟩ := decidePermit_cases s.grants.takeCheck <;> rw [he]
  · exact .inl hchecked
  · exact .inr (.inl ⟨rfl, hpassed⟩)
  · exact .inr (.inr ⟨rfl, hfailed, by simp [hnot]⟩)

/-- Settling that leaves VERIFYING ends the run. -/
theorem settle_runEnded (hs : s.RunAgrees) (hv : s.permit = .verifying) (hended : s.settle.permit ≠ .verifying) : s.settle.RunEnded := by
  obtain ⟨-, hrun, -⟩ := hs
  obtain ⟨r, hr, hnumber, -⟩ := hrun (by rw [hv]; rfl)
  obtain ⟨hdeadline, hunread, hreport⟩ := settle_run_end s hv hended
  refine ⟨fun hp => ?_, fun hp => ?_, hdeadline, hunread, ?_⟩
  · obtain h | ⟨-, h⟩ | ⟨h, -⟩ := settle_decision hv
    · exact absurd h hended
    · exact h
    · cases h.symm.trans hp
  · obtain h | ⟨h, -⟩ | ⟨-, h⟩ := settle_decision hv
    · exact absurd h hended
    · cases h.symm.trans hp
    · exact h
  · simp [State.run, hreport, hr, hnumber, State.runDuration, Nat.min_comm]

theorem runStart_runEnded {cause : StartCause} (hended : (s.runStart cause).permit ≠ .verifying) : (s.runStart cause).RunEnded :=
  settle_runEnded (newRun_runAgrees s cause) rfl hended

end

end Sys2Proof.Machine
end

section
/-! PROOFS. What the operations of the upstream port, of the verifier and of the service handler are to the permit controller: most leave
its view, the others drive the outputs or settle the run logic. -/

namespace Sys2Proof.Machine

/-! ## Operations that leave the view -/

theorem arbitrate_control (s : State) : s.arbitrate.control = s.control := by
  rw [arbitrate_eq]
  rfl

theorem settleMode_control (s : State) : s.settleMode.control = s.control := by
  rw [settleMode_eq]
  rfl

theorem endTx_control (s : State) : s.endTx.control = s.control := settleMode_control _

/-- The cause set goes to the tally of the report (R86). -/
theorem handCauses_control (s : State) (x : Tx) : (s.handCauses x).control = s.control := by
  have hrun : (s.handCauses x).run = s.run := by
    unfold State.handCauses
    split
    · simp [State.run, Function.comp_def]
    · rfl
  rw [handCauses_eq] at hrun ⊢
  simp only [State.control, hrun]
  rfl

theorem place_control (s : State) (code arg : Byte) (status : Status) (data : List Byte) :
    (s.place code arg status data).control = s.control := rfl

theorem wire_control (s : State) (bs : List Byte) : (s.wire bs).control = s.control := by
  obtain ⟨-, -, he⟩ | ⟨-, he⟩ := wire_cases s bs <;> rw [he]
  rfl

theorem setTx_control (s : State) (x : Option Tx) : (s.setTx x).control = s.control := rfl

theorem send_control (s : State) (bs : List Byte) : (s.send bs).control = s.control := rfl

theorem answer_control (s : State) (b : Byte) (o : Origin) : (s.answer b o).control = s.control := rfl

/-- A byte sampled in a transaction. -/
theorem answered_control (s : State) (x : Option Tx) (b : Byte) (o : Origin) : ((s.setTx x).answer b o).control = s.control :=
  (answer_control _ b o).trans (setTx_control s x)

theorem forward_control (s : State) (x : Tx) (e : ClassEntry) (bs : List Byte) : (s.forward x e bs).control = s.control := rfl

theorem fetched_control (s : State) (n : Nat) : (s.fetched n).control = s.control := rfl

theorem serviceByte_control (s : State) (x : Tx) (e : ClassEntry) (b : Byte) : (s.serviceByte x e b).control = s.control := by
  unfold State.serviceByte
  dsimp only
  split
  · split <;> rfl
  · split
    · rfl
    · split
      · exact (fetched_control _ _).trans (answered_control _ _ _ _)
      · split
        · rfl
        · exact answered_control _ _ _ _
    · exact answered_control _ _ _ _
  · exact (answer_control _ _ _).trans ((send_control _ _).trans (setTx_control s _))
  · rfl
  · rfl

theorem snoop_control (s : State) (b : Byte) : (s.snoop b).control = s.control := by
  unfold State.snoop
  split <;> rfl

theorem countBurst_control (s : State) (c : Fin 4) (left : Nat) : (s.countBurst c left).control = s.control := by
  rw [countBurst_eq]
  rfl

theorem modRt_rstate (s : State) (i : Nat) {f : Runtime → Runtime} (h : ∀ t, (f t).state = t.state) : (s.modRt i f).rstate = s.rstate := by
  funext k
  simp only [State.rstate, rt_modRt]
  split
  · simp [Function.comp_def, h]
  · rfl

/-- A payload byte that is not the last leaves the region's state. -/
theorem fed_control (s : State) (c : Fin 4) (i : Nat) (z : Ctx) (y : Runtime) (b : Byte) (seen : Bool) :
    (s.fed c i z y b seen).control = s.control := by
  have hstates : (s.fed c i z y b seen).rstate = s.rstate := modRt_rstate (s.setCtx c _) i fun _ => rfl
  simp only [State.control, hstates]
  rfl

theorem takeByte_control {s : State} {c : Fin 4} (b : Byte) (hmore : s.completes c = false) : (s.takeByte c b).control = s.control := by
  obtain he | ⟨z, -, ⟨i, he⟩ | ⟨i, y, he⟩⟩ := takeByte_of_more b hmore <;> rw [he]
  · rfl
  · exact fed_control s c i z y b false

/-! ## The bytes of a transaction in progress -/

section
variable (s : State) (c : Instr)

/-- A refusal joins VIOLATION to the alert causes (R124, R161). -/
theorem recordRefusal_works (cls : TxClass) (a : Option Nat) (cause : RefusalCause) : Works s (s.recordRefusal cls a cause) :=
  ⟨rfl, rfl, .inl rfl, rfl, rfl, rfl, .inl rfl⟩

theorem refuse_control {u : State} (hu : u.control = s.control) (x : Tx) (cls : TxClass) (a : Option Nat) (cause : RefusalCause) :
    ControlStep c s (u.refuse x cls a cause) := by
  have hcut : Works s (u.truncate x) := .of_control hu
  have hrefused := hcut.trans (recordRefusal_works _ cls a cause)
  exact Works.drive (hrefused.trans (t := ((u.truncate x).recordRefusal cls a cause)) (.of_control rfl))

theorem classify_control (x : Tx) (b : Byte) (e : ClassEntry) : ControlStep c s (s.classify x b e) := by
  have hforward (x' : Tx) (bs : List Byte) : ControlStep c s (s.forward x' e bs) := .quiet (forward_control s x' e bs)
  unfold State.classify
  split
  case h_1 => exact .quiet rfl
  case h_2 =>
    have hcut : Works s (s.truncate x) := .of_control rfl
    exact (hcut.trans (recordRefusal_works _ .barred none .barred)).drive
  case h_3 =>
    split
    · exact hforward _ _
    · exact .quiet rfl
  case h_4 =>
    dsimp only
    split
    · exact refuse_control s c rfl _ _ _ _
    · exact hforward _ _
  case h_5 =>
    split
    · exact hforward _ _
    · exact refuse_control s c rfl _ _ _ _
  all_goals exact hforward _ _

/-- A refused write has sent all but its last address byte (R118), which leaves the view. -/
theorem addressWrite_control (x : Tx) (e : ClassEntry) (a : BitVec 32) : ControlStep c s (s.addressWrite x e a) := by
  unfold State.addressWrite
  dsimp only
  split
  · exact refuse_control s c (send_control s _) _ _ _ _
  · exact .quiet rfl

theorem address_control (x : Tx) (e : ClassEntry) (a : BitVec 32) : ControlStep c s (s.address x e a) := by
  unfold State.address
  split
  case h_1 =>
    unfold State.addressRead
    dsimp only
    split <;> exact .quiet rfl
  case h_2 | h_3 | h_4 => exact addressWrite_control s c x e a
  all_goals exact .quiet rfl

/-- An offered byte that is not the last leaves the view; the last completes the digest and settles (R69, R71). -/
theorem offer_control {u : State} (hu : u.control = s.control) (a : Nat) (b : Byte) : ControlStep c s (u.offer a b) := by
  unfold State.offer
  split
  · rename_i k i hobserver
    split
    · exact ((Works.of_control hu).trans (.of_sansVerifier (absorb_sansVerifier u k i b true))).settle
    · rename_i hmore
      have hhashing := observer_hashing hobserver
      obtain ⟨z, hz, -⟩ := hashing_ctx hhashing
      obtain ⟨y, hy, -⟩ := rstate_eq_some_iff.mp (hashing_rstate hhashing)
      rw [absorb_eq b true hz hy, if_neg hmore]
      exact .quiet ((fed_control ..).trans hu)
  · exact .quiet hu

theorem dataByte_control (x : Tx) (e : ClassEntry) (b : Byte) : ControlStep c s (s.dataByte x e b) := by
  unfold State.dataByte
  dsimp only
  split
  case h_1 => exact .quiet (serviceByte_control s x e b)
  case h_5 =>
    unfold State.readByte
    dsimp only
    split
    · exact offer_control s c (answered_control _ _ _ _) _ b
    · exact .quiet (answered_control _ _ _ _)
  case h_6 =>
    split
    · exact .quiet (snoop_control _ b)
    · exact .quiet rfl
  all_goals exact .quiet rfl

/-! ## The judgement at select rise -/

/-- An effective write that touches regions marks them and settles (R43, R122). -/
theorem acceptWrite_control (x : Tx) : ControlStep c s (s.acceptWrite x) := by
  unfold State.acceptWrite
  split
  · exact .quiet rfl
  · dsimp only
    split
    · rename_i range _
      have hwritten : Works s s.written := .of_control rfl
      exact (hwritten.trans (.of_sansVerifier (staleRange_sansVerifier s.written range))).settle
    · exact .quiet rfl

theorem judgeRise_control (x : Tx) : ControlStep c s (s.judgeRise x) := by
  unfold State.judgeRise
  split
  · exact .quiet rfl
  · split
    · unfold State.accept
      split
      case h_1 | h_2 | h_3 | h_4 | h_5 => exact acceptWrite_control s c x
      all_goals exact .quiet rfl
    · split <;> exact .quiet rfl

/-! ## Requests -/

variable {s c} {u : State}

/-- A RESTART that is taken begins a run (R168). -/
theorem takeRestart_control (hu : u.control = s.control) (hc : bringsRestart c) : ControlStep c s u.takeRestart := by
  have hpermit : u.permit = s.permit := congrArg Control.permit hu
  unfold State.takeRestart
  split
  case h_1 h => exact .restarted u (.of_control hu) (.inl (hpermit.symm.trans h)) hc (place_control ..)
  case h_2 h => exact .restarted u (.of_control hu) (.inr (hpermit.symm.trans h)) hc (place_control ..)
  all_goals exact .quiet hu

/-- A VERIFY that is STARTED enters the queue and settles (R58). -/
theorem takeVerify_control (hu : u.control = s.control) (index : Byte) : ControlStep c s (u.takeVerify index) := by
  unfold State.takeVerify
  dsimp only
  split
  · exact ((Works.of_control hu).trans (.of_sansVerifier (newAttempt_sansVerifier u index.toNat))).settle.next (place_control ..)
  · exact .quiet hu

theorem takeRequest_control (hu : u.control = s.control) {q : Request} (hc : q = .restart → bringsRestart c) :
    ControlStep c s (u.takeRequest q) := by
  cases q with
  | report =>
    have hcleared : Works s u.clearReported := (Works.of_control hu).trans ⟨rfl, rfl, .inl rfl, rfl, rfl, rfl, .inl rfl⟩
    exact Works.drive (hcleared.trans (.of_control (place_control ..)))
  | peek | unknown => exact .quiet hu
  | restart => exact takeRestart_control hu (hc rfl)
  | detail index =>
    refine .quiet (Eq.trans ?_ hu)
    show (u.takeDetail index).control = _
    unfold State.takeDetail
    split <;> rfl
  | verify index => exact takeVerify_control hu index
  | raiseFloor kind =>
    refine .quiet (Eq.trans ?_ hu)
    show (u.takeRaise kind).control = _
    unfold State.takeRaise
    dsimp only
    split <;> rfl
  | revoke slot =>
    refine .quiet (Eq.trans ?_ hu)
    show (u.takeRevoke slot).control = _
    unfold State.takeRevoke
    dsimp only
    split <;> rfl

theorem takeBytes_control (hu : u.control = s.control) {bytes : List Byte}
    (hc : requestOf bytes = some .restart → bringsRestart c) : ControlStep c s (u.takeBytes bytes) := by
  unfold State.takeBytes
  split
  · rename_i q hq
    exact takeRequest_control hu fun h => hc (h ▸ hq)
  · exact .quiet hu

/-- An accepted transaction hands on no request, and a consumed one is judged to nothing (R101, R106). -/
theorem rise_control {x : Tx} (hc : requestOf x.service = some .restart → bringsRestart c) : ControlStep c s (s.rise x) := by
  have hend (u : State) : ((u.handCauses x).endTx).control = u.control := (endTx_control _).trans (handCauses_control u x)
  refine ControlStep.next ?_ (arbitrate_control _)
  by_cases hconsumed : x.handling = .consumed
  · rw [judgeRise_of_other (by simp [hconsumed]) (by simp [hconsumed])]
    unfold State.handRequest
    split
    · exact takeBytes_control (hend s) hc
    · exact .quiet (hend s)
  · rw [handRequest_of_nothing _ (.inl hconsumed)]
    exact (judgeRise_control s c x).next (hend _)

theorem request_control {bytes : List Byte} (hc : requestOf bytes = some .restart → bringsRestart c) :
    ControlStep c s (s.request bytes) := by
  unfold State.request
  split
  · split
    · have hserved : s.afterService.control = s.control := settleMode_control _
      exact (takeBytes_control hserved hc).next (arbitrate_control _)
    · exact .quiet rfl
  · split
    · rename_i hbytes
      obtain ⟨-, rfl⟩ := hbytes
      exact rise_control hc
    · exact .quiet rfl

end

end Sys2Proof.Machine
end

section
/-! PROOFS. Every command, by what it is to the permit controller (`ControlStep`), after the time that it takes to pass. -/

namespace Sys2Proof.Machine

variable {s t : State} {c : Instr}

/-- The state `d` µs later, its queue set: every timer has less left. -/
def State.onward (s : State) (queue : List Instr) (d : Nat) : State := ({ s with pending := queue } : State).elapse d

/-- Command `c` leads from `s` to `t`, in some time, as one of the kinds of step. -/
def Controlled (c : Instr) (s t : State) : Prop := ∃ d, ControlStep c (s.elapse d) t

/-- In no time. -/
theorem ControlStep.now (h : ControlStep c s t) : Controlled c s t := ⟨0, (elapse_zero s).symm ▸ h⟩

theorem Controlled.quiet (h : t.control = s.control) : Controlled c s t := (ControlStep.quiet h).now

/-! ## Resets, load and provisioning -/

theorem execPowerOn_controlled {mode clkbyp cut : Bool} (h : execPowerOn mode clkbyp cut s = .next t) :
    Controlled (.powerOn mode clkbyp cut) s t := by
  cases h
  exact ControlStep.now (.reset 0 (.inl ⟨_, _, _, rfl⟩) rfl)

theorem execResetNAssert_controlled (h : execResetNAssert s = .next t) : Controlled .resetNAssert s t := by
  unfold execResetNAssert at h
  split at h <;> cases h
  · exact .quiet rfl
  · exact ControlStep.now (.reset s.runNumber (.inr rfl) rfl)

theorem execResetNRelease_controlled {mode clkbyp cut : Bool} (h : execResetNRelease mode clkbyp cut s = .next t) :
    Controlled c s t := by
  unfold execResetNRelease at h
  split at h <;> cases h <;> exact .quiet rfl

/-- What the load leads to (R152, R175): a run start, or a permit state in which the part does not run. -/
theorem afterLoad_control {u : State} (hu : u.control = s.control) (hload : s.load ≠ .none) : ControlStep .loadComplete s u.afterLoad := by
  have hleft {m : State} (hcalm : m.permit.running = false) (hdenied : m.alerts.denied = u.alerts.denied)
      (hdeadline : m.deadline = u.deadline) : ControlStep .loadComplete s m.drive :=
    .left m (.inl ⟨rfl, hload⟩) hcalm (hdenied.trans (congrArg (·.alerts.denied) hu)) (hdeadline.trans (congrArg Control.deadline hu)) rfl
  unfold State.afterLoad
  split
  · split
    · exact .loaded _ _ rfl hload rfl
    · exact hleft (m := u.enterFault) rfl rfl rfl
  · split
    · exact hleft (m := u.enterProvisioning) rfl rfl rfl
    · split
      · exact hleft rfl rfl rfl
      · exact hleft (m := u.enterFault) rfl rfl rfl

theorem execLoadComplete_controlled (h : execLoadComplete s = .next t) : Controlled .loadComplete s t := by
  unfold execLoadComplete at h
  split at h
  · cases h
    exact .quiet rfl
  · rename_i reads hload
    cases h
    have hresolved : ({ s with load := .none, store := s.store.resolve reads } : State).control = s.control := rfl
    have hload : s.load ≠ .none := by simp [hload]
    exact (((afterLoad_control hresolved hload).next (settleMode_control _)).next (arbitrate_control _)).now

/-- The burn of a provisioning goes on, or ends in PROVISIONED (R177). -/
theorem burnNext_control {u : State} (hu : u.control = s.control) (hprov : s.prov ≠ .idle)
    (hc : (∃ image, c = .bootstrapReadComplete image) ∨ c = .provisionCellBurnComplete) (want : Store) :
    ControlStep c s (u.burnNext want).drive := by
  unfold State.burnNext
  split
  · exact Works.drive (.of_control hu)
  · exact .left { u with prov := .idle, permit := .provisioned } (.inr ⟨hprov, .inl rfl, hc⟩) rfl (congrArg (·.alerts.denied) hu)
      (congrArg Control.deadline hu) rfl

theorem execBootstrapReadComplete_controlled {image : List Byte} (h : execBootstrapReadComplete image s = .next t) :
    Controlled (.bootstrapReadComplete image) s t := by
  unfold execBootstrapReadComplete at h
  dsimp only at h
  split at h
  · rename_i hreading
    have hprov : s.prov ≠ .idle := by simp [hreading.1]
    have hfault : ControlStep (.bootstrapReadComplete image) s s.freeFlash.enterFault.drive :=
      .left s.freeFlash.enterFault (.inr ⟨hprov, .inr rfl, .inl ⟨_, rfl⟩⟩) rfl rfl rfl rfl
    split at h
    · cases h
      exact hfault.now
    · split at h
      · cases h
        exact hfault.now
      · obtain rfl := Host.Outcome.next.inj h
        have hfreed : s.freeFlash.control = s.control := rfl
        exact (burnNext_control hfreed hprov (.inl ⟨_, rfl⟩) _).now
  · cases h
    exact .quiet rfl

theorem execProvisionCellBurnComplete_controlled (h : execProvisionCellBurnComplete s = .next t) :
    Controlled .provisionCellBurnComplete s t := by
  unfold execProvisionCellBurnComplete at h
  split at h
  · rename_i want cell left hburning
    obtain rfl := Host.Outcome.next.inj h
    have hprov : (s.elapse left).prov ≠ .idle := by simp [hburning, Provisioning.lapse]
    have hburned (st : Store) : ({ s.elapse left with store := st } : State).control = (s.elapse left).control := rfl
    exact ⟨left, burnNext_control (hburned _) hprov (.inr rfl) want⟩
  · cases h
    exact .quiet rfl
  · cases h
    exact .quiet rfl

/-! ## The upstream port -/

theorem execUpstreamSelectAssert_controlled (h : execUpstreamSelectAssert s = .next t) : Controlled c s t := by
  unfold execUpstreamSelectAssert at h
  dsimp only at h
  split at h
  · cases h
    exact .quiet rfl
  · split at h <;> cases h <;> exact .quiet rfl

theorem execInstructionByteComplete_controlled {b : Byte} (h : execInstructionByteComplete b s = .next t) : Controlled c s t := by
  unfold execInstructionByteComplete at h
  split at h
  · split at h <;> cases h
    · exact (classify_control s c _ b _).now
    · exact .quiet rfl
  · cases h
    exact .quiet (wire_control s [b])

theorem execAddressComplete_controlled {a : BitVec 32} (h : execAddressComplete a s = .next t) : Controlled c s t := by
  unfold execAddressComplete at h
  split at h
  · split at h <;> cases h
    · exact (address_control s c _ _ a).now
    · exact .quiet rfl
  · cases h
    exact .quiet (wire_control s _)

theorem execDummyCountComplete_controlled (h : execDummyCountComplete s = .next t) : Controlled c s t := by
  unfold execDummyCountComplete at h
  split at h
  · split at h <;> cases h <;> exact .quiet rfl
  · cases h
    exact .quiet rfl

theorem execUpstreamDataByte_controlled {b : Byte} (h : execUpstreamDataByte b s = .next t) : Controlled c s t := by
  unfold execUpstreamDataByte at h
  split at h
  · cases h
    split <;> exact .quiet rfl
  · cases h
    split
    · exact .quiet (wire_control s [b])
    · exact .quiet rfl
  · split at h
    · split at h <;> cases h
      · exact (dataByte_control s c _ _ b).now
      · exact .quiet rfl
    · cases h
      exact .quiet rfl

theorem execUpstreamSelectRise_controlled {clocks : Fin 8} (h : execUpstreamSelectRise clocks s = .next t) :
    Controlled (.upstreamSelectRise clocks) s t := by
  unfold execUpstreamSelectRise at h
  split at h
  · split at h <;> cases h
    · exact (rise_control fun _ => .inr ⟨_, rfl⟩).now
    · exact .quiet (settleMode_control _)
    · exact .quiet (settleMode_control _)
  · cases h
    exact .quiet rfl

theorem execFetch_controlled (h : execFetch s = .next t) : Controlled c s t := by
  unfold execFetch at h
  split at h
  · split at h <;> cases h <;> exact .quiet rfl
  · split at h <;> cases h <;> exact .quiet rfl

/-- An unknown request's code is that of no request of R163's table. -/
theorem execUnknownRequest_controlled {code : Byte} (h : execUnknownRequest code s = .next t) : Controlled c s t := by
  unfold execUnknownRequest at h
  split at h <;> cases h
  · exact .quiet rfl
  · rename_i hunknown
    refine (request_control fun hrestart => absurd ?_ hunknown).now
    by_cases hcode : code = 0x05
    · rw [hcode]
      decide
    · simp only [requestOf, if_neg hcode] at hrestart
      repeat' split at hrestart
      all_goals cases hrestart

/-! ## Completions and expiries -/

theorem execBurstByteReceived_controlled {b : Byte} (h : execBurstByteReceived b s = .next t) : Controlled c s t := by
  unfold execBurstByteReceived at h
  split at h <;> cases h
  · rename_i k left _
    refine ControlStep.now (ControlStep.next ?_ (arbitrate_control _))
    split
    · have htaken : Works s ((s.takeByte k b).countBurst k left) := .of_sansVerifier (by simp)
      exact htaken.settle
    · rename_i hmore
      exact .quiet ((countBurst_control _ k left).trans (takeByte_control b (Bool.eq_false_iff.mpr hmore)))
  · exact .quiet rfl

theorem execSignatureCheckComplete_controlled (h : execSignatureCheckComplete s = .next t) : Controlled c s t := by
  unfold execSignatureCheckComplete at h
  split at h <;> cases h
  · rename_i e withdrawn key left _
    refine ⟨left, ControlStep.next (Works.settle ?_) (arbitrate_control _)⟩
    have hchecked : Works (s.elapse left) (s.checked left) := .of_control rfl
    split
    · exact hchecked
    · exact hchecked.trans (.of_sansVerifier (applyResult_sansVerifier (s.checked left) e _))
  · exact .quiet rfl

theorem execDeadlineExpiry_controlled (h : execDeadlineExpiry s = .next t) : Controlled c s t := by
  unfold execDeadlineExpiry at h
  split at h <;> cases h
  · rename_i left _
    exact ⟨left, (expire_works (s.elapse left)).settle.next (arbitrate_control _)⟩
  · exact .quiet rfl

theorem execHoldPulseExpiry_controlled (h : execHoldPulseExpiry s = .next t) : Controlled c s t := by
  unfold execHoldPulseExpiry at h
  split at h <;> cases h
  · rename_i left _
    have hended : Works (s.elapse left) (s.pulseEnded left) := ⟨rfl, rfl, .inr rfl, rfl, rfl, rfl, .inl rfl⟩
    exact ⟨left, hended.drive⟩
  · exact .quiet rfl
  · exact .quiet rfl

theorem execWakeComplete_controlled (h : execWakeComplete s = .next t) : Controlled c s t := by
  unfold execWakeComplete at h
  split at h <;> cases h
  · exact .quiet (arbitrate_control _)
  · exact .quiet rfl

theorem execWakeWaitEnd_controlled (h : execWakeWaitEnd s = .next t) : Controlled c s t := by
  unfold execWakeWaitEnd at h
  split at h <;> cases h
  · exact ⟨_, .quiet (arbitrate_control _)⟩
  · exact .quiet rfl

theorem execStatusPollComplete_controlled {status : Byte} (h : execStatusPollComplete status s = .next t) : Controlled c s t := by
  unfold execStatusPollComplete at h
  split at h
  · cases h
    refine .quiet ((arbitrate_control _).trans ?_)
    split <;> rfl
  · cases h
    exact .quiet rfl

theorem execPollWaitEnd_controlled (h : execPollWaitEnd s = .next t) : Controlled c s t := by
  unfold execPollWaitEnd at h
  split at h <;> cases h
  · exact ⟨_, .quiet (arbitrate_control _)⟩
  · exact .quiet rfl

theorem execWriteDisableComplete_controlled (h : execWriteDisableComplete s = .next t) : Controlled c s t := by
  unfold execWriteDisableComplete at h
  split at h <;> cases h
  · exact .quiet (arbitrate_control _)
  · exact .quiet rfl

theorem execSleepComplete_controlled (h : execSleepComplete s = .next t) : Controlled c s t := by
  unfold execSleepComplete at h
  split at h <;> cases h
  · exact .quiet (arbitrate_control _)
  · exact .quiet rfl

theorem execFloorCellComplete_controlled (h : execFloorCellComplete s = .next t) : Controlled c s t := by
  unfold execFloorCellComplete at h
  split at h
  · cases h
    exact ⟨_, .quiet rfl⟩
  · cases h
    exact .quiet rfl

theorem execRevokeCellComplete_controlled (h : execRevokeCellComplete s = .next t) : Controlled c s t := by
  unfold execRevokeCellComplete at h
  split at h
  · cases h
    exact ⟨_, .quiet rfl⟩
  · cases h
    exact .quiet rfl

/-! ## Every command -/

theorem exec_controlled (h : exec c s = .next t) : Controlled c s t := by
  have hrequest {bytes : List Byte} (hno : requestOf bytes = some .restart → bringsRestart c)
      (h : Host.Outcome.next (s.request bytes) = (.next t : Result)) : Controlled c s t := by
    cases h
    exact (request_control hno).now
  cases c with
  | powerOn => exact execPowerOn_controlled h
  | resetNAssert => exact execResetNAssert_controlled h
  | resetNRelease => exact execResetNRelease_controlled h
  | loadComplete => exact execLoadComplete_controlled h
  | bootstrapReadComplete => exact execBootstrapReadComplete_controlled h
  | provisionCellBurnComplete => exact execProvisionCellBurnComplete_controlled h
  | upstreamSelectAssert => exact execUpstreamSelectAssert_controlled h
  | instructionByteComplete => exact execInstructionByteComplete_controlled h
  | addressComplete => exact execAddressComplete_controlled h
  | dummyCountComplete => exact execDummyCountComplete_controlled h
  | upstreamDataByte => exact execUpstreamDataByte_controlled h
  | upstreamSelectRise => exact execUpstreamSelectRise_controlled h
  | restart => exact hrequest (fun _ => .inl rfl) h
  | report | peek | detail | verify | raiseFloor | revoke => exact hrequest (fun hno => by simp [requestOf] at hno) h
  | fetch => exact execFetch_controlled h
  | unknownRequest => exact execUnknownRequest_controlled h
  | burstByteReceived => exact execBurstByteReceived_controlled h
  | signatureCheckComplete => exact execSignatureCheckComplete_controlled h
  | deadlineExpiry => exact execDeadlineExpiry_controlled h
  | holdPulseExpiry => exact execHoldPulseExpiry_controlled h
  | wakeComplete => exact execWakeComplete_controlled h
  | wakeWaitEnd => exact execWakeWaitEnd_controlled h
  | statusPollComplete => exact execStatusPollComplete_controlled h
  | pollWaitEnd => exact execPollWaitEnd_controlled h
  | writeDisableComplete => exact execWriteDisableComplete_controlled h
  | sleepComplete => exact execSleepComplete_controlled h
  | floorCellComplete => exact execFloorCellComplete_controlled h
  | revokeCellComplete => exact execRevokeCellComplete_controlled h

/-- Every step is one of the kinds: time on an empty queue leaves the view, and else a command is taken. -/
theorem step_controlled (h : step s = .next t) :
    ∃ c queue d, ControlStep c (s.onward queue d) t ∧ (s.permit ≠ t.permit → s.pending = c :: queue) := by
  unfold step at h
  split at h
  · cases h
    exact ⟨.holdPulseExpiry, s.pending, 1, .quiet rfl, fun hmoved => absurd rfl hmoved⟩
  · rename_i c rest hpending
    obtain ⟨d, hd⟩ := exec_controlled h
    exact ⟨c, rest, d, hd, fun _ => hpending⟩

end Sys2Proof.Machine
end

section
/-! PROOFS. The outputs agree with the records through every step (R155 to R157, R162, R180), every assertion of CTRL_HOLD_N lasts a pulse
(R157), and the permit state moves as its table says (R152 to R154, R160, R161, R168). -/

namespace Sys2Proof.Machine

/-! ## Time leaves what a step may rest on -/

section
variable {s : State} (queue : List Instr) (d : Nat)

theorem lapse_isRunning (p : Pulse) : (p.lapse d).isRunning = p.isRunning := by cases p <;> rfl

theorem onward_outputsAgree (h : s.OutputsAgree) : (s.onward queue d).OutputsAgree := by
  obtain ⟨hprint, hhold, halert, hprotect⟩ := h
  exact ⟨hprint, hhold.trans (congrArg (s.holdCondition || ·) (lapse_isRunning d s.pulse).symm), halert, hprotect⟩

theorem onward_portsAgree (h : s.PortsAgree) : (s.onward queue d).PortsAgree := (elapse_move { s with pending := queue } d).agrees h

theorem onward_runAgrees (h : s.RunAgrees) : (s.onward queue d).RunAgrees := by
  obtain ⟨hdeadline, hrest⟩ := h
  refine ⟨fun hd => hdeadline fun hnone => hd ?_, hrest⟩
  show lapse d s.deadline = none
  rw [hnone]
  rfl

end

section
variable {s t : State} {c : Instr}

/-! ## The outputs -/

/-- Settles O53: an event that changes what the outputs follow ends by driving them, and any other leaves outputs and records. -/
theorem everyStepKeepsTheOutputsInAgreement : Obligations.EveryStepKeepsTheOutputsInAgreement := by
  intro s t hs h
  obtain ⟨c, queue, d, hstep, -⟩ := step_controlled h
  exact hstep.outputsAgree (onward_outputsAgree queue d hs)

/-! ## The hold pulse -/

/-- CTRL_HOLD_N is asserted for as long as the load or the provisioning is to come (R156). -/
theorem held_of_starting (hports : s.PortsAgree) (houtputs : s.OutputsAgree) (h : s.load ≠ .none ∨ s.prov ≠ .idle) :
    s.pins.ctrlHold = true := by
  obtain ⟨-, hhold, -⟩ := houtputs
  obtain ⟨-, -, -, -, hload, -, hprov, -⟩ := hports
  have hcondition : s.holdCondition = true := by
    obtain h | h := h
    · simp only [State.holdCondition, hload h]
    · simp only [State.holdCondition, hprov h]
  rw [hhold, hcondition, Bool.true_or]

theorem State.leaves.starting {p : PermitState} (h : s.leaves c p) : s.load ≠ .none ∨ s.prov ≠ .idle := h.imp And.right And.left

/-- From a released line, a step leaves it released or starts the pulse in full, but for a reset. -/
theorem ControlStep.holdTimed (h : ControlStep c s t) (hports : s.PortsAgree) (houtputs : s.OutputsAgree)
    (hline : s.pins.ctrlHold = false) : t.HoldTimed ∨ (t.permit = .loading ∧ t.pulse = .startup) := by
  have hreleased : s.Released := ⟨hline, (houtputs.released hline).2⟩
  have hstarted : ¬ (s.load ≠ .none ∨ s.prov ≠ .idle) := fun h => by simp [held_of_starting hports houtputs h] at hline
  cases h with
  | quiet h => exact .inl (holdTimed_of_control h (.inl hreleased))
  | driven m hm h => exact .inl (holdTimed_of_control h (drive_holdTimed (.inl (hm.released hreleased))))
  | settled m hm h => exact .inl (holdTimed_of_control h (settle_holdTimed (.inl (hm.released hreleased))))
  | restarted m hm _ _ h => exact .inl (holdTimed_of_control h (runStart_holdTimed (hm.released hreleased) .restart))
  | loaded _ _ _ hload => exact absurd (.inl hload) hstarted
  | left _ hc => exact absurd hc.starting hstarted
  | reset n _ h => exact .inr ⟨permit_of_control h, pulse_of_control h⟩

/-- Settles O54: a line that was released is driven at most twice in an event, and the first assertion starts the pulse. -/
theorem everyAssertionOfTheHoldLineLastsAPulse : Obligations.EveryAssertionOfTheHoldLineLastsAPulse := by
  intro s t houtputs hports h hline hasserted
  obtain ⟨c, queue, d, hstep, -⟩ := step_controlled h
  obtain (⟨hreleased, -⟩ | ⟨-, hpulse⟩) | hreset :=
    hstep.holdTimed (onward_portsAgree queue d hports) (onward_outputsAgree queue d houtputs) hline
  · cases hreleased.symm.trans hasserted
  · exact .inl hpulse
  · exact .inr hreset

/-! ## The moves of the permit state -/

/-- Settling moves the permit state from VERIFYING alone (R154). -/
theorem settle_permit_of_not_verifying (h : s.permit ≠ .verifying) : s.settle.permit = s.permit := by
  have hchecked : s.grants.takeCheck.permit = s.permit := by simp
  rw [settle_permit]
  obtain ⟨he, -⟩ | ⟨hv, -⟩ | ⟨hv, -⟩ := decidePermit_cases s.grants.takeCheck
  · rw [he, hchecked]
  · exact absurd (hchecked.symm.trans hv) h
  · exact absurd (hchecked.symm.trans hv) h

theorem runStart_permit (s : State) (cause : StartCause) :
    (s.runStart cause).permit = .verifying ∨ (s.runStart cause).permit = .permitted := by
  by_cases hn : s.NothingRequired
  · exact .inr (runStart_permit_of_nothing s cause hn)
  · exact .inl (runStart_permit_of_required s cause hn)

theorem runStart_regions (s : State) (cause : StartCause) : (s.runStart cause).regions = s.regions := State.settle_regions _

/-- The moves of R152's table, by the command that brings them. -/
theorem ControlStep.move (h : ControlStep c s t) (hports : s.PortsAgree) (hmoved : s.permit ≠ t.permit) :
    (t.permit = .loading ∧ ((∃ mode clkbyp cut, c = .powerOn mode clkbyp cut) ∨ c = .resetNAssert))
      ∨ (s.permit = .loading ∧ c = .loadComplete)
      ∨ (s.permit = .provisioning ∧ (t.permit = .provisioned ∨ t.permit = .fault)
          ∧ ((∃ image, c = .bootstrapReadComplete image) ∨ c = .provisionCellBurnComplete))
      ∨ (s.permit = .verifying ∧ (t.permit = .permitted ∨ t.permit = .denied))
      ∨ ((s.permit = .permitted ∨ s.permit = .denied) ∧ t.permit.running = true ∧ bringsRestart c) := by
  have hloading : s.load ≠ .none → s.permit = .loading := by
    obtain ⟨-, -, -, -, hload, -⟩ := hports
    exact hload
  cases h with
  | quiet h => exact absurd (permit_of_control h).symm hmoved
  | driven m hm h => exact absurd ((permit_of_control h).trans hm.permit).symm hmoved
  | settled m hm h =>
    have ht : t.permit = m.settle.permit := permit_of_control h
    rw [← hm.permit, ht] at hmoved ⊢
    by_cases hv : m.permit = .verifying
    · obtain hstays | ⟨hp, -⟩ | ⟨hp, -⟩ := settle_decision hv
      · exact absurd (hv.trans hstays.symm) hmoved
      · exact .inr (.inr (.inr (.inl ⟨hv, .inl hp⟩)))
      · exact .inr (.inr (.inr (.inl ⟨hv, .inr hp⟩)))
    · exact absurd (settle_permit_of_not_verifying hv).symm hmoved
  | restarted m _ hended hc h =>
    have ht : t.permit = (m.runStart .restart).permit := permit_of_control h
    refine .inr (.inr (.inr (.inr ⟨hended, ?_, hc⟩)))
    obtain hp | hp := runStart_permit m .restart <;> rw [ht, hp] <;> rfl
  | loaded _ _ hc hload => exact .inr (.inl ⟨hloading hload, hc⟩)
  | left m hc _ _ _ h =>
    have ht : t.permit = m.permit := (permit_of_control h).trans (State.drive_permit m)
    rw [ht]
    obtain ⟨hc, hload⟩ | ⟨hprov, hp, hc⟩ := hc
    · exact .inr (.inl ⟨hloading hload, hc⟩)
    · exact .inr (.inr (.inl ⟨hports.provisioning_of_prov hprov, hp, hc⟩))
  | reset n hc h => exact .inl ⟨permit_of_control h, hc⟩

/-! ## The run -/

/-- The step from VERIFYING to PERMITTED or DENIED is the run end (R54). -/
theorem ControlStep.runEnded (h : ControlStep c s t) (hs : s.RunAgrees) (hv : s.permit = .verifying)
    (hended : t.permit = .permitted ∨ t.permit = .denied) : t.RunEnded ∧ t.RunAgrees := by
  have hleft : t.permit ≠ .verifying := by obtain h | h := hended <;> simp [h]
  cases h with
  | quiet h => exact absurd ((permit_of_control h).trans hv) hleft
  | driven m hm h => exact absurd (((permit_of_control h).trans hm.permit).trans hv) hleft
  | settled m hm h =>
    have ht : t.permit = m.settle.permit := permit_of_control h
    have hm' := hm.runAgrees hs
    exact ⟨runEnded_of_control h (settle_runEnded hm' (hm.permit.trans hv) (ht ▸ hleft)), runAgrees_of_control h (settle_runAgrees hm')⟩
  | restarted m _ _ _ h | loaded m _ _ _ h =>
    have ht := permit_of_control h
    exact ⟨runEnded_of_control h (runStart_runEnded fun hm => hleft (ht.trans hm)), runAgrees_of_control h (runStart_runAgrees m _)⟩
  | left m _ hcalm _ _ h =>
    have ht : t.permit = m.permit := (permit_of_control h).trans (State.drive_permit m)
    rw [← ht] at hcalm
    obtain h | h := hended <;> simp [h, PermitState.running] at hcalm
  | reset n _ h =>
    have ht : t.permit = .loading := permit_of_control h
    simp [ht] at hended

/-- Before the load is over, and in PROVISIONING, no run has begun: no deadline runs and DENIED does not stand. -/
theorem calm_of_starting (hports : s.PortsAgree) (hs : s.RunAgrees) (h : s.load ≠ .none ∨ s.prov ≠ .idle) :
    s.deadline = none ∧ s.alerts.denied = false := by
  have hnot : s.permit.running = false := Bool.eq_false_iff.mpr fun hrunning => by
    obtain ⟨hload, -, hprov⟩ := hports.of_running hrunning
    exact h.elim (· hload) (· hprov)
  obtain ⟨hdeadline, -, hdenied⟩ := hs
  refine ⟨by_contra fun hd => ?_, Bool.eq_false_iff.mpr fun hd => ?_⟩
  · simp [hdeadline hd, PermitState.running] at hnot
  · simp [hdenied.mp hd, PermitState.running] at hnot

/-- With no deadline and no DENIED among the alert causes there is nothing for a permit state to agree with in which the part does not
run. -/
theorem runAgrees_of_calm (hcalm : s.permit.running = false) (hdeadline : s.deadline = none) (hdenied : s.alerts.denied = false) :
    s.RunAgrees := by
  refine ⟨fun h => absurd hdeadline h, fun h => by simp [hcalm] at h, iff_of_false (by simp [hdenied]) fun h => ?_⟩
  simp [h, PermitState.running] at hcalm

theorem ControlStep.runAgrees (h : ControlStep c s t) (hports : s.PortsAgree) (hs : s.RunAgrees) : t.RunAgrees := by
  cases h with
  | quiet h => exact runAgrees_of_control h hs
  | driven m hm h =>
    have hm' : m.drive.RunAgrees := hm.runAgrees hs
    exact runAgrees_of_control h hm'
  | settled m hm h => exact runAgrees_of_control h (settle_runAgrees (hm.runAgrees hs))
  | restarted m _ _ _ h | loaded m _ _ _ h => exact runAgrees_of_control h (runStart_runAgrees m _)
  | left m hc hcalm hdenied hdeadline h =>
    obtain ⟨hd, ha⟩ := calm_of_starting hports hs hc.starting
    exact runAgrees_of_control h (runAgrees_of_calm (s := m.drive) hcalm (hdeadline.trans hd) (hdenied.trans ha))
  | reset n _ h => exact runAgrees_of_control h (runAgrees_of_calm rfl rfl rfl)

end

/-- A RESTART that is taken in PERMITTED or DENIED leaves of the run what its run start leaves (R168). -/
theorem exec_restart_of_ended {s : State} (hlisten : s.Listening) (hended : s.permit ≠ .verifying) : ∃ t, exec .restart s = .next t
    ∧ t.permit = (s.served.runStart .restart).permit ∧ t.runNumber = (s.served.runStart .restart).runNumber
    ∧ t.regions = (s.served.runStart .restart).regions ∧ t.report = (s.served.runStart .restart).report := by
  obtain ⟨-, hrunning⟩ := id hlisten
  have hrestart := takeRestart_of_ended (s := s.served) hrunning hended
  exact ⟨_, exec_restart_of_listening hlisten, (State.arbitrate_permit _).trans (by rw [hrestart]),
    (State.arbitrate_runNumber _).trans (by rw [hrestart]), (State.arbitrate_regions _).trans (by rw [hrestart]),
    (State.arbitrate_report _).trans (by rw [hrestart])⟩

/-- Settles O56: by the kind of each step; a RESTART in PERMITTED or DENIED is a run start. -/
theorem thePermitStateMovesAsItsTableSays : Obligations.ThePermitStateMovesAsItsTableSays := by
  refine ⟨fun s t hports h hmoved => ?_, fun s t hs h hv hended => ?_, fun s t hports hs h => ?_, fun s hlisten hended => ?_⟩
  · obtain ⟨c, queue, d, hstep, hpending⟩ := step_controlled h
    have hpending := hpending hmoved
    obtain ⟨hp, ⟨mode, clkbyp, cut, rfl⟩ | rfl⟩ | ⟨hp, rfl⟩ | ⟨hp, hp', ⟨image, rfl⟩ | rfl⟩ | hrun | ⟨hp, hp', rfl | ⟨clocks, rfl⟩⟩ :=
      hstep.move (onward_portsAgree queue d hports) hmoved
    · exact .inl ⟨hp, queue, .inl ⟨mode, clkbyp, cut, hpending⟩⟩
    · exact .inl ⟨hp, queue, .inr hpending⟩
    · exact .inr (.inl ⟨hp, queue, hpending⟩)
    · exact .inr (.inr (.inl ⟨hp, hp', queue, .inl ⟨image, hpending⟩⟩))
    · exact .inr (.inr (.inl ⟨hp, hp', queue, .inr hpending⟩))
    · exact .inr (.inr (.inr (.inl hrun)))
    · exact .inr (.inr (.inr (.inr ⟨hp, hp', queue, .inl hpending⟩)))
    · exact .inr (.inr (.inr (.inr ⟨hp, hp', queue, .inr ⟨clocks, hpending⟩⟩)))
  · obtain ⟨c, queue, d, hstep, -⟩ := step_controlled h
    obtain ⟨⟨hpassed, hfailed, hdeadline, hunread, hrun⟩, -, -, hdenied⟩ := hstep.runEnded (onward_runAgrees queue d hs) hv hended
    obtain ⟨r, hr, hrun⟩ := Option.map_eq_some_iff.mp hrun
    simp only [Prod.mk.injEq] at hrun
    exact ⟨hpassed, hfailed, hdeadline, hunread, hdenied, r, hr, hrun⟩
  · obtain ⟨c, queue, d, hstep, -⟩ := step_controlled h
    exact hstep.runAgrees (onward_portsAgree queue d hports) (onward_runAgrees queue d hs)
  · obtain ⟨t, hexec, hpermit, hnumber, hregions, hreport⟩ := exec_restart_of_ended hlisten hended
    obtain ⟨hrun, -⟩ := runStart_run s.served .restart
    rw [hrun, ← hnumber] at hreport
    refine ⟨t, hexec, hpermit ▸ runStart_permit s.served .restart, hnumber.trans (runStart_runNumber s.served .restart),
      fun i r hr => ?_, _, hreport, rfl, rfl⟩
    exact (region_congr (s := s) (hregions.trans (runStart_regions s.served .restart)) i).trans hr

end Sys2Proof.Machine
end

section
/-! PROOFS. The layout of the run report data and of the region detail data (R172): codes and flags, the report's entries one after another,
and then each byte of the two. -/

namespace Sys2Proof.Machine

/-! ## Codes and flags (R172) -/

/-- Values coded from `d` in the order of a list: the code is the place in the list, and `d` more. -/
theorem code_of_place {α : Type} {l : List α} {f : α → Byte} {d : Nat} (hall : ∀ i : Fin l.length, (f l[i]).toNat = i + d)
    {k : Nat} {a : α} (h : l[k]? = some a) : (f a).toNat = k + d := by
  obtain ⟨hk, rfl⟩ := List.getElem?_eq_some_iff.mp h
  exact hall ⟨k, hk⟩

theorem stateCode_of_place {k : Nat} {st : RState} (h : stateCodes[k]? = some st) : st.code.toNat = k :=
  code_of_place (f := RState.code) (d := 0) (by decide) h

theorem reasonCode_of_place {k : Nat} {q : Reason} (h : reasonCodes[k]? = some q) : q.code.toNat = k + 1 :=
  code_of_place (f := Reason.code) (by decide) h

theorem startCause_code_eq (c : StartCause) : c.code = match c with | .power => 0 | .pin => 1 | .restart => 2 := by cases c <;> rfl

theorem flagBit_zero (b : Bool) : flagBit 0 b = if b = true then 1 else 0 := by cases b <;> rfl

theorem stateCode_lt (st : RState) : st.code.toNat < 16 := by cases st <;> decide

/-- The reason's byte, 0 where there is none. -/
def reasonByte (q : Option Reason) : Byte := (q.map Reason.code).getD 0

theorem reasonByte_lt (q : Option Reason) : (reasonByte q).toNat < 16 := by
  cases q with
  | none => decide
  | some q => cases q <;> decide

/-- Two numbers of four bits in one byte. -/
theorem or_shiftLeft_four {x y : Byte} (hx : x.toNat < 16) (hy : y.toNat < 16) :
    (x ||| (y <<< 4)).toNat % 16 = x.toNat ∧ (x ||| (y <<< 4)).toNat / 16 = y.toNat := by
  have hsum : (x ||| (y <<< 4)).toNat = y.toNat <<< 4 + x.toNat := by
    rw [Nat.shiftLeft_add_eq_or_of_lt (by omega), Nat.or_comm, BitVec.toNat_or, BitVec.toNat_shiftLeft, Nat.mod_eq_of_lt]
    omega
  rw [hsum]
  omega

theorem getLsbD_flagBit (n k : Nat) (b : Bool) : (flagBit n b).getLsbD k = (b && decide (k < 8 ∧ k = n)) := by
  cases b with
  | false => simp [flagBit]
  | true =>
    simp only [flagBit, if_true, BitVec.getLsbD_shiftLeft, BitVec.getLsbD_one, Bool.true_and, Nat.zero_lt_succ, decide_true]
    rw [← decide_not, ← Bool.decide_and, ← Bool.decide_and]
    exact decide_eq_decide.mpr (by omega)

/-- A flag of bit 4 or above leaves the four bits below. -/
theorem toNat_or_flagBit_mod (x : Byte) {n : Nat} (hn : 4 ≤ n) (b : Bool) : (x ||| flagBit n b).toNat % 16 = x.toNat % 16 := by
  have hflag : (flagBit n b).toNat % 2 ^ 4 = 0 := by
    refine Nat.eq_of_testBit_eq fun k => ?_
    have hbit : (flagBit n b).toNat.testBit k = (b && decide (k < 8 ∧ k = n)) := getLsbD_flagBit n k b
    simp only [Nat.testBit_mod_two_pow, hbit, Nat.zero_testBit]
    grind
  rw [BitVec.toNat_or, show 16 = 2 ^ 4 from rfl, Nat.or_mod_two_pow, hflag, Nat.or_zero]

theorem getLsbD_natByte_mod (i : Nat) {k : Nat} (hk : 4 ≤ k) : (natByte (i % 16)).getLsbD k = false := by
  rw [natByte, BitVec.getLsbD_ofNat, show 16 = 2 ^ 4 from rfl, Nat.testBit_mod_two_pow]
  simp [Nat.not_lt.mpr hk]

/-- The first byte of a report's entry: the index below, four flags above. -/
theorem entryFlags_bits {i : Nat} (hi : i < 16) (a b c e : Bool) {x : Byte}
    (hx : x = natByte (i % 16) ||| flagBit 4 a ||| flagBit 5 b ||| flagBit 6 c ||| flagBit 7 e) :
    x.toNat % 16 = i ∧ x.getLsbD 4 = a ∧ x.getLsbD 5 = b ∧ x.getLsbD 6 = c ∧ x.getLsbD 7 = e := by
  have hindex : x.toNat % 16 = i := by
    simp only [hx, toNat_or_flagBit_mod, Nat.le_refl, Nat.reduceLeDiff, natByte, BitVec.toNat_ofNat]
    omega
  have hbit (k : Nat) (hk : 4 ≤ k) : x.getLsbD k = (flagBit 4 a ||| flagBit 5 b ||| flagBit 6 c ||| flagBit 7 e).getLsbD k := by
    simp only [hx, BitVec.getLsbD_or, getLsbD_natByte_mod i hk, Bool.false_or]
  refine ⟨hindex, ?_⟩
  simp only [hbit, Nat.le_refl, Nat.reduceLeDiff, BitVec.getLsbD_or, getLsbD_flagBit]
  simp

/-- The flags byte of the region detail. -/
theorem detailFlags_bits (a b c e f g : Bool) {x : Byte}
    (hx : x = flagBit 0 a ||| flagBit 1 b ||| flagBit 2 c ||| flagBit 3 e ||| flagBit 4 f ||| flagBit 5 g) :
    x.getLsbD 0 = a ∧ x.getLsbD 1 = b ∧ x.getLsbD 2 = c ∧ x.getLsbD 3 = e ∧ x.getLsbD 4 = f ∧ x.getLsbD 5 = g ∧ x.toNat < 64 := by
  have hsmall : x.toNat < 2 ^ 6 := by
    refine Nat.lt_pow_two_of_testBit _ fun k hk => ?_
    show x.getLsbD k = false
    simp only [hx, BitVec.getLsbD_or, getLsbD_flagBit]
    grind
  simp only [hx, BitVec.getLsbD_or, getLsbD_flagBit] at hsmall ⊢
  simpa using hsmall

/-! ## Parts of a byte string -/

theorem byteAt_append_right (xs ys : List Byte) (k : Nat) : byteAt (xs ++ ys) (xs.length + k) = byteAt ys k := by
  simp [byteAt, List.getElem?_append_right]

theorem byteAt_append_left {xs : List Byte} (ys : List Byte) {k : Nat} (hk : k < xs.length) : byteAt (xs ++ ys) k = byteAt xs k := by
  simp [byteAt, List.getElem?_append_left hk]

theorem slice_of_append {xs ys zs : List Byte} {a n : Nat} (ha : xs.length = a) (hn : ys.length = n) :
    slice (xs ++ ys ++ zs) a n = ys := by
  subst ha hn
  simp [slice]

/-! ## A region's pair in the report and in the detail -/

theorem pairRecordOf_eq_none {s : State} {i : Nat} (hof : s.pairOf i = none) : s.pairRecordOf i = none := by
  rw [State.pairRecordOf, hof, Option.bind_none]

theorem pairRecordOf_eq_some {s : State} {i j : Nat} {p : Pair} (hof : s.pairOf i = some j) (hp : s.pair j = some p) :
    s.pairRecordOf i = some p := by
  rw [State.pairRecordOf, hof, Option.bind_some, hp]

theorem pairRecordOf_isSome (s : State) (i : Nat) : (s.pairRecordOf i).isSome = (s.pairOf i).isSome := by
  cases hof : s.pairOf i with
  | none =>
    rw [pairRecordOf_eq_none hof]
    rfl
  | some j =>
    obtain ⟨p, hp⟩ := pairOf_pair hof
    rw [pairRecordOf_eq_some hof hp]
    rfl

theorem pairRecordOf_any_iff {s : State} {i : Nat} {f : Pair → Bool} {P : Pair → Prop} (hf : ∀ p, f p = true ↔ P p) :
    (s.pairRecordOf i).any f = true ↔ ∃ j p, s.pairOf i = some j ∧ s.pair j = some p ∧ P p := by
  simp only [State.pairRecordOf, Option.any_eq_true, Option.bind_eq_some_iff, hf]
  constructor
  · rintro ⟨p, ⟨j, hof, hp⟩, hfp⟩
    exact ⟨j, p, hof, hp, hfp⟩
  · rintro ⟨j, p, hof, hp, hfp⟩
    exact ⟨p, ⟨j, hof, hp⟩, hfp⟩

/-! ## The entries of the run report -/

/-- What the report holds for one place of the runtime table. -/
def State.entryAt (s : State) (x : Option Runtime × Nat) : List Byte := x.1.elim [] (s.reportEntry x.2)

/-- The report's entries, in ascending region index. -/
def State.reportEntries (s : State) : List Byte := s.runtime.zipIdx.flatMap s.entryAt

theorem reportEntry_length (s : State) (i : Nat) (y : Runtime) : (s.reportEntry i y).length = 3 := rfl

theorem length_entries (s : State) (l : List (Option Runtime)) (n : Nat) :
    ((l.zipIdx n).flatMap s.entryAt).length = 3 * l.countP Option.isSome := by
  induction l generalizing n with
  | nil => rfl
  | cons t l ih =>
    rw [List.zipIdx_cons, List.flatMap_cons, List.length_append, ih]
    cases t with
    | none => simp [State.entryAt]
    | some y =>
      simp only [State.entryAt, Option.elim_some, reportEntry_length, List.countP_cons_of_pos, Option.isSome_some]
      omega

/-- The entry of a region stands after the entries of those before it. -/
theorem reportEntries_split {s : State} {i : Nat} {y : Runtime} (hy : s.rt i = some y) :
    ∃ before after, s.reportEntries = before ++ s.reportEntry i y ++ after
      ∧ before.length = 3 * (s.runtime.take i).countP Option.isSome := by
  have hget : s.runtime[i]? = some (some y) := Option.join_eq_some_iff.mp hy
  obtain ⟨hi, hat⟩ := List.getElem?_eq_some_iff.mp hget
  refine ⟨_, ((s.runtime.drop (i + 1)).zipIdx (i + 1)).flatMap s.entryAt, ?_, length_entries s (s.runtime.take i) 0⟩
  have hsplit : s.runtime = s.runtime.take i ++ some y :: s.runtime.drop (i + 1) := by
    rw [← hat, ← List.drop_eq_getElem_cons hi, List.take_append_drop]
  conv_lhs => rw [State.reportEntries, hsplit]
  rw [List.zipIdx_append, List.flatMap_append, List.zipIdx_cons, List.flatMap_cons, List.length_take_of_le (by omega), Nat.zero_add,
    List.append_assoc]
  rfl

/-! ## The run report -/

theorem refusalBytes_length (v : Option LastRefusal) : (refusalBytes v).length = 6 := by
  cases v <;> simp [refusalBytes]

theorem burnBytes_eq (b : Option Burn) : burnBytes b = match b with
    | none => [0, 0xFF]
    | some ⟨.floor k _, _⟩ => [1, BitVec.ofNat 8 k.1]
    | some ⟨.revoke i, _⟩ => [2, BitVec.ofNat 8 i.1] := by
  obtain _ | ⟨_ | _, _⟩ := b <;> rfl

theorem burnBytes_length (b : Option Burn) : (burnBytes b).length = 2 := by
  obtain _ | ⟨_ | _, _⟩ := b <;> rfl

/-- The report record that the data show. -/
def State.reported (s : State) : Report := s.report.getD ⟨s.runNumber, s.resetCause, none, ⟨0, 0, 0, 0⟩⟩

/-- The 12 bytes of the report before those of the last refusal. -/
def State.reportHead (s : State) : List Byte :=
  leBytes 2 s.reported.runNumber.toNat ++ [s.reported.cause.code, s.permit.code, flagBit 0 s.reported.duration.isSome]
    ++ leBytes 2 (s.reported.duration.getD 0)
    ++ [natByte s.reported.tally.range, natByte s.reported.tally.crossing, natByte s.reported.tally.tail, natByte s.reported.tally.gate]
    ++ [natByte s.violation.count]

theorem reportData_eq (s : State) :
    s.reportData = s.reportHead ++ refusalBytes s.violation.last ++ burnBytes s.keys.burn ++ s.reportEntries := by
  have hentry : s.entryAt = fun (t, i) => match t with | some t => s.reportEntry i t | none => [] := by
    funext ⟨t, i⟩
    cases t <;> rfl
  rw [State.reportEntries, hentry]
  rfl

theorem reportHead_length (s : State) : s.reportHead.length = 12 := rfl

theorem reportFixed_length (s : State) : (s.reportHead ++ refusalBytes s.violation.last ++ burnBytes s.keys.burn).length = 20 := by
  simp only [List.length_append, reportHead_length, refusalBytes_length, burnBytes_length]

theorem reportData_length (s : State) : s.reportData.length = 20 + 3 * s.runtime.countP Option.isSome := by
  rw [reportData_eq, List.length_append, reportFixed_length, State.reportEntries, length_entries]

/-- The same, with the parts that follow the first twelve bytes taken together. -/
theorem reportData_eq_head_append (s : State) :
    s.reportData = s.reportHead ++ (refusalBytes s.violation.last ++ (burnBytes s.keys.burn ++ s.reportEntries)) := by
  rw [reportData_eq, List.append_assoc, List.append_assoc]

theorem slice_reportData_refusal (s : State) : slice s.reportData 12 6 = refusalBytes s.violation.last := by
  rw [reportData_eq_head_append, ← List.append_assoc]
  exact slice_of_append (reportHead_length s) (refusalBytes_length _)

theorem slice_reportData_burn (s : State) : slice s.reportData 18 2 = burnBytes s.keys.burn := by
  rw [reportData_eq]
  refine slice_of_append ?_ (burnBytes_length _)
  rw [List.length_append, reportHead_length, refusalBytes_length]

/-- The three bytes of a region's entry stand after the entries of the regions before it. -/
theorem byteAt_reportData_entry {s : State} {i : Nat} {y : Runtime} (hy : s.rt i = some y) {k : Nat} (hk : k < 3) :
    byteAt s.reportData (20 + 3 * (s.runtime.take i).countP Option.isSome + k) = byteAt (s.reportEntry i y) k := by
  obtain ⟨before, after, hsplit, hlength⟩ := reportEntries_split hy
  rw [reportData_eq, hsplit, List.append_assoc before, ← List.append_assoc _ before, ← hlength, ← reportFixed_length s,
    ← List.length_append, byteAt_append_right, byteAt_append_left _ hk]

/-- The fixed bytes of the report but those of the last refusal and of the burn. -/
theorem reportData_fixed {s : State} {rep : Report} (hrep : s.report = some rep) (hdur : ∀ n, rep.duration = some n → n < 65536) :
    leNat (slice s.reportData 0 2) = rep.runNumber.toNat
      ∧ byteAt s.reportData 2 = rep.cause.code ∧ byteAt s.reportData 3 = s.permit.code
      ∧ byteAt s.reportData 4 = flagBit 0 rep.duration.isSome
      ∧ leNat (slice s.reportData 5 2) = rep.duration.getD 0
      ∧ slice s.reportData 7 4 = [natByte rep.tally.range, natByte rep.tally.crossing, natByte rep.tally.tail, natByte rep.tally.gate]
      ∧ byteAt s.reportData 11 = natByte s.violation.count := by
  have hreported : s.reported = rep := by rw [State.reported, hrep]; rfl
  have hduration : rep.duration.getD 0 < 256 ^ 2 := by
    cases hd : rep.duration with
    | none => decide
    | some n => exact hdur n hd
  rw [reportData_eq_head_append, State.reportHead, hreported]
  exact ⟨leNat_leBytes 2 _ rep.runNumber.isLt, rfl, rfl, rfl, leNat_leBytes 2 _ hduration, rfl, rfl⟩

/-- The layout of the last refusal (R124, R172). -/
theorem reportData_lastRefusal {s : State} {v : LastRefusal} (hv : s.violation.last = some v) :
    byteAt s.reportData 12 = v.cls.refusalCode ∧ byteAt s.reportData 13 = v.cause.code
      ∧ slice s.reportData 14 4 = leBytes 4 (v.address.getD 0xFFFFFFFF) := by
  rw [reportData_eq_head_append, hv]
  exact ⟨rfl, rfl, rfl⟩

/-! ## The region detail -/

/-- The last five bytes of the detail, those of the region's pair. -/
def pairBytes : Option Pair → List Byte
  | some p => [p.state.code, p.selection.code, natByte p.order.length] ++ orderBytes p
  | none => [0xFF, 0xFF, 0, 0xFF, 0xFF]

theorem pairBytes_length (p : Option Pair) : (pairBytes p).length = 5 := by cases p <;> rfl

/-- The bytes of the pair follow the detail's first 20. -/
theorem drop_detailData (s : State) (i : Nat) (y : Runtime) : (s.detailData i y).drop 20 = pairBytes (s.pairRecordOf i) := by
  unfold pairBytes
  rfl

theorem detailData_length (s : State) (i : Nat) (y : Runtime) : (s.detailData i y).length = 25 := by
  have hlast : ((s.detailData i y).drop 20).length = 5 := (congrArg List.length (drop_detailData s i y)).trans (pairBytes_length _)
  rw [List.length_drop] at hlast
  omega

theorem slice_detailData_pair (s : State) (i : Nat) (y : Runtime) : slice (s.detailData i y) 20 5 = pairBytes (s.pairRecordOf i) := by
  rw [slice, drop_detailData]
  exact List.take_of_length_le (pairBytes_length _).le

theorem byteAt_detailData_pair (s : State) (i : Nat) (y : Runtime) (k : Nat) :
    byteAt (s.detailData i y) (20 + k) = byteAt (pairBytes (s.pairRecordOf i)) k := by
  rw [← drop_detailData s i y]
  simp only [byteAt, List.getD_eq_getElem?_getD, List.getElem?_drop]

/-- Settles O32: each part stands where the lengths of those before it put it, and codes and flags are read back from their bytes. -/
theorem theReportIsLaidOut : Obligations.TheReportIsLaidOut := by
  refine ⟨fun s rep hrep hdur => ?fixed, fun s v hv => ?refusal, fun s i y hy hi => ?entry, fun s i y hy => ?detail⟩
  case fixed =>
    obtain ⟨hnumber, hcause, hpermit, hflag, hduration, htally, hcount⟩ := reportData_fixed hrep hdur
    have hlength := reportData_length s
    refine ⟨hnumber, hcause.trans (startCause_code_eq _), fun h => ?_, fun h => ?_, fun h => ?_, hflag.trans (flagBit_zero _), hduration,
      htally, hcount, fun h => ?_, (slice_reportData_burn s).trans (burnBytes_eq _), hlength, fun h => ?_⟩
    iterate 3 · rw [hpermit, h]; rfl
    · rw [slice_reportData_refusal, h]; rfl
    · have hcounted := List.countP_le_length (p := Option.isSome) (l := s.runtime)
      show s.reportData.length ≤ 68
      omega
  case refusal =>
    obtain ⟨hclass, hcause, haddress⟩ := reportData_lastRefusal hv
    refine ⟨fun k h => ?_, fun k h => ?_, fun a h hlt => ?_, fun h => ?_⟩
    · exact (congrArg BitVec.toNat hclass).trans (code_of_place (f := TxClass.refusalCode) (by decide) h)
    · exact (congrArg BitVec.toNat hcause).trans (code_of_place (f := RefusalCause.code) (by decide) h)
    · rw [haddress, h]
      exact leNat_leBytes 4 a hlt
    · rw [haddress, h]
      rfl
  case entry =>
    intro d start
    have hfirst : byteAt d start = _ := byteAt_reportData_entry hy (k := 0) (by decide)
    have hsecond : byteAt d (start + 1) = y.state.code ||| (reasonByte y.reason <<< 4) := byteAt_reportData_entry hy (by decide)
    have hthird : byteAt d (start + 2) = byteOrFF (y.recorded.map Recorded.epoch) := byteAt_reportData_entry hy (by decide)
    obtain ⟨hindex, hobserved, hselected, hescalated, hpaired⟩ := entryFlags_bits hi _ _ _ _ hfirst
    obtain ⟨hlow, hhigh⟩ := or_shiftLeft_four (stateCode_lt y.state) (reasonByte_lt y.reason)
    rw [← hsecond] at hlow hhigh
    refine ⟨hindex, hobserved, ?_, ?_, hpaired.trans (pairRecordOf_isSome s i), fun k h => hlow.trans (stateCode_of_place h), fun h => ?_,
      fun k q hk h => ?_, fun h => ?_, fun m h => ?_⟩
    · rw [hselected]
      exact pairRecordOf_any_iff fun p => beq_iff_eq
    · rw [hescalated]
      exact pairRecordOf_any_iff fun p => Iff.rfl
    · rw [hhigh, h]; rfl
    · rw [hhigh, h]
      exact reasonCode_of_place hk
    · rw [hthird, h]; rfl
    · rw [hthird, h]; rfl
  case detail =>
    intro d
    have hflags : byteAt d 2 = _ := rfl
    obtain ⟨hrecorded, hcontext, hobserved, hpaired, hhome, hescalated, hsmall⟩ := detailFlags_bits _ _ _ _ _ _ hflags
    have hreason : byteAt d 1 = reasonByte y.reason := rfl
    refine ⟨detailData_length s i y, fun k h => stateCode_of_place h, fun h => ?_, fun k q hk h => ?_, hrecorded, hcontext, hobserved,
      hpaired.trans (pairRecordOf_isSome s i), ?_, ?_, hsmall, fun h => ?_, fun m h hlen hseq => ?_, leNat_leBytes 4 y.progress,
      ?_, leNat_leBytes 2 _ y.runTag.isLt, fun hof => ?_, fun j p hof hp => ?_⟩
    · rw [hreason, h]; rfl
    · rw [hreason, h]
      exact reasonCode_of_place hk
    · rw [hhome]
      exact pairRecordOf_any_iff fun p => beq_iff_eq
    · rw [hescalated]
      exact pairRecordOf_any_iff fun p => Iff.rfl
    · show slice (s.detailData i y) 3 10 = _
      rw [State.detailData, h]
      rfl
    · have hdata : d = s.detailData i y := rfl
      rw [hdata, State.detailData, h]
      exact ⟨leNat_leBytes 4 m.signedLength hlen, rfl, rfl, leNat_leBytes 4 m.sequence hseq⟩
    · show byteOrFF (y.context.map Fin.val) = _
      cases y.context <;> rfl
    · exact (slice_detailData_pair s i y).trans (congrArg pairBytes (pairRecordOf_eq_none hof))
    · have hbyte (k : Nat) : byteAt d (20 + k) = byteAt (pairBytes (some p)) k := by
        rw [← pairRecordOf_eq_some hof hp, byteAt_detailData_pair s i y]
      refine ⟨fun k h => ?_, fun k h => ?_, hbyte 2, (hbyte 3).trans ?_, (hbyte 4).trans ?_⟩
      · exact (congrArg BitVec.toNat (hbyte 0)).trans (code_of_place (f := PairState.code) (d := 0) (by decide) h)
      · exact (congrArg BitVec.toNat (hbyte 1)).trans (code_of_place (f := Selection.code) (d := 0) (by decide) h)
      · show byteOrFF ((p.order[0]?).map p.region) = _
        cases p.order[0]? <;> rfl
      · show byteOrFF ((p.order[1]?).map p.region) = _
        cases p.order[1]? <;> rfl

end Sys2Proof.Machine
end

section
/-! PROOFS. REPORT, PEEK, DETAIL and unknown codes in a listening part (R165, R166): what each leaves, and the clearing that is REPORT's
alone. -/

namespace Sys2Proof.Machine

/-! ## The clearing (R125, R161, R162, R165) -/

/-- With the outputs in agreement no pulse starts: CTRL_HOLD_N is asserted where the hold condition asks for it. -/
theorem nextPulse_of_outputsAgree {s : State} (h : s.OutputsAgree) : s.nextPulse = s.pulse := by
  obtain ⟨-, hhold, -, -⟩ := h
  rw [State.nextPulse, if_neg]
  simp only [hhold, Bool.and_eq_true, Bool.not_eq_true', Bool.or_eq_false_iff]
  rintro ⟨hyes, hno, -⟩
  rw [hyes] at hno
  cases hno

/-- Outputs in agreement stand as they are when they are driven anew. -/
theorem drive_eq_self {s : State} (h : s.OutputsAgree) : s.drive = s := by
  have hpulse := nextPulse_of_outputsAgree h
  obtain ⟨-, hhold, -, -⟩ := id h
  have hpins : s.drive.pins = s.pins := by rw [drive_pins_of_agree h rfl rfl rfl, hpulse, ← hhold]
  calc s.drive = { s with pulse := s.nextPulse, pins := s.drive.pins } := rfl
    _ = s := by rw [hpulse, hpins]

/-- With the outputs in agreement, a change of the alert causes moves ALERT_N alone (R162). -/
theorem drive_of_alerts {s : State} (h : s.OutputsAgree) (v : Violation) (a : Alerts) (r : Option Response) :
    ({ s with violation := v, alerts := a, response := r } : State).drive
      = { s with
          violation := v, alerts := a, response := r
          pins := { s.pins with alert := s.cfg.alertEnable && a.any } } := by
  show ({ s.drive with
      violation := v, alerts := a, response := r
      pins := { s.drive.pins with alert := s.cfg.alertEnable && a.any } } : State) = _
  rw [drive_eq_self h]

/-- REPORT places the data as they stood before its clearing. -/
theorem takeReport_eq {s : State} (h : s.OutputsAgree) :
    s.takeReport = { s with
      violation := ⟨0, none⟩
      alerts := { s.alerts with resultUnread := false, violation := false }
      pins := { s.pins with alert := s.cfg.alertEnable && (s.alerts.denied || s.alerts.fault) }
      response := s.reply 0x01 0xFF 0 s.reportData } := by
  rw [State.takeReport, place_eq]
  exact drive_of_alerts h _ _ _

/-! ## DETAIL and unknown codes (R163, R166) -/

theorem takeDetail_of_verifiable {s : State} {index : Byte} {r : Region} {y : Runtime} (h : s.verifiableAt index = some r)
    (hy : s.rt index.toNat = some y) :
    s.takeDetail index = { s with response := s.reply 0x03 index 0 (s.detailData index.toNat y) } := by
  simp only [State.takeDetail, h, hy, place_eq]
  rfl

theorem takeDetail_of_none {s : State} {index : Byte} (h : s.verifiableAt index = none) :
    s.takeDetail index = { s with response := s.reply 0x03 index 5 [] } := by
  simp only [State.takeDetail, h, place_eq]
  rfl

/-- A code that R163's table does not list is a request of its own. -/
theorem requestOf_of_unknown {code : Byte} (h : code ∉ knownCodes) : requestOf [code] = some (.unknown code) := by
  simp only [knownCodes, List.mem_cons, List.not_mem_nil, or_false, not_or] at h
  obtain ⟨hreport, hpeek, hdetail, hverify, hrestart, hraise, hrevoke, hfetch⟩ := h
  rw [requestOf, if_neg hreport, if_neg hpeek, if_neg hrestart, if_neg]
  simp only [carriesArgument, fetchCode, Bool.or_eq_true, beq_iff_eq, not_or]
  exact ⟨⟨⟨⟨hdetail, hverify⟩, hraise⟩, hrevoke⟩, hfetch⟩

/-! ## The requests in a listening part -/

theorem next_request_of_listening {s t : State} (h : s.Listening) {bytes : List Byte} (htake : s.served.takeBytes bytes = t) :
    (.next (s.request bytes) : Result) = .next t.arbitrate := by
  rw [request_of_listening h, htake]

/-- Settles O31: each request is taken in the state that its service transaction leaves, whose records are those before it. -/
theorem reportsAnswerAndOnlyReportClears : Obligations.ReportsAnswerAndOnlyReportClears := by
  refine ⟨fun s hlisten hout => ?report, fun s hlisten => ⟨?peek, fun index r y hle hr hgate hy => ?detail, fun index hno => ?none,
    fun code hcode => ?unknown⟩⟩
  case report => exact next_request_of_listening hlisten (takeReport_eq (s := s.served) hout)
  case peek => exact next_request_of_listening hlisten (place_eq s.served 0x02 0xFF .done s.served.reportData)
  case detail =>
    exact next_request_of_listening hlisten (takeDetail_of_verifiable (s := s.served) (verifiableAt_eq_some hle hr hgate) hy)
  case none => exact next_request_of_listening hlisten (takeDetail_of_none (s := s.served) (verifiableAt_eq_none hno))
  case unknown =>
    have hexec : exec (.unknownRequest code) s = .next (s.request [code]) := if_neg (by simpa using hcode)
    have htake : s.served.takeBytes [code] = s.served.place code 0xFF .refusedArgument [] := by
      rw [State.takeBytes, requestOf_of_unknown hcode]
      rfl
    exact hexec.trans (next_request_of_listening hlisten (htake.trans (place_eq s.served code 0xFF .refusedArgument [])))

end Sys2Proof.Machine
end

section
/-! PROOFS. No step unburns a cell of the one-time store (R142, R149, R173): requests and most events leave the store, a reset and a load
change no cell but the cut one, and the completions of a burn each burn a cell more. -/

namespace Sys2Proof.Machine

/-! ## What keeps the burned cells -/

theorem Store.Keeps.of_eq {st st' : Store} (h : st' = st) : st.Keeps st' := h ▸ .refl st

/-- The record of the cut cell is no cell. -/
theorem keeps_cut (st : Store) (c : Option StoreCell) : st.Keeps { st with cut := c } := fun x hx => (burned_cut st c x).trans hx

/-- A load burns the cut cell to full strength, or leaves it unburned (R151, R173). -/
theorem keeps_resolve (st : Store) (reads : Bool) : st.Keeps (st.resolve reads) := by
  unfold Store.resolve
  split
  · refine Store.Keeps.trans ?_ (keeps_cut _ none)
    split
    · exact keeps_burn st _
    · exact .refl st
  · exact .refl st

theorem keeps_cutStore (s : State) : s.store.Keeps s.cutStore := keeps_cut s.store _

theorem keeps_raiseOne (s : State) (k : Fin 8) : s.store.Keeps (s.raiseOne k).store := by
  unfold State.raiseOne
  dsimp only
  split
  · exact keeps_burn _ _
  · exact .refl _

section
variable {s t : State}

theorem KeepsKeys.keepsStore (h : KeepsKeys s t) : s.store.Keeps t.store := .of_eq h.store

/-! ## Requests leave the store -/

theorem takeRequest_store (s : State) (q : Request) : (s.takeRequest q).store = s.store := by
  cases q with
  | report | peek | unknown => rfl
  | restart =>
    change s.takeRestart.store = _
    unfold State.takeRestart
    split
    case h_1 | h_2 => exact (runStart_keys s .restart).1
    all_goals rfl
  | detail index =>
    change (s.takeDetail index).store = _
    unfold State.takeDetail
    split <;> rfl
  | verify index =>
    change (s.takeVerify index).store = _
    unfold State.takeVerify
    dsimp only
    split <;> simp
  | raiseFloor kind =>
    change (s.takeRaise kind).store = _
    unfold State.takeRaise
    dsimp only
    split <;> rfl
  | revoke slot =>
    change (s.takeRevoke slot).store = _
    unfold State.takeRevoke
    dsimp only
    split <;> rfl

theorem takeBytes_store (s : State) (bytes : List Byte) : (s.takeBytes bytes).store = s.store := by
  unfold State.takeBytes
  split
  · exact takeRequest_store s _
  · rfl

theorem rise_store (s : State) (x : Tx) : (s.rise x).store = s.store := by
  have hended := (ended_keepsKeys s x).store
  unfold State.rise State.handRequest
  rw [State.arbitrate_store]
  split
  · exact (takeBytes_store _ _).trans hended
  · exact hended

theorem request_store (s : State) (bytes : List Byte) : (s.request bytes).store = s.store := by
  unfold State.request
  split
  · split
    · rw [State.arbitrate_store, takeBytes_store]
      exact State.settleMode_store _
    · rfl
  · split
    · exact rise_store s _
    · rfl

/-! ## The commands that `KeepsKeys` does not cover -/

theorem execUpstreamSelectRise_keepsStore {clocks : Fin 8} (h : execUpstreamSelectRise clocks s = .next t) : s.store.Keeps t.store := by
  unfold execUpstreamSelectRise at h
  split at h
  · split at h <;> cases h
    · exact .of_eq (rise_store s _)
    · exact .of_eq (State.settleMode_store _)
    · exact .of_eq (State.settleMode_store _)
  · cases h
    exact .refl _

theorem execUnknownRequest_keepsStore {code : Byte} (h : execUnknownRequest code s = .next t) : s.store.Keeps t.store := by
  unfold execUnknownRequest at h
  split at h <;> cases h
  · exact .refl _
  · exact .of_eq (request_store s _)

theorem execResetNAssert_keepsStore (h : execResetNAssert s = .next t) : s.store.Keeps t.store := by
  unfold execResetNAssert at h
  split at h <;> cases h
  · exact .refl _
  · exact keeps_cutStore s

theorem execResetNRelease_keepsStore {mode clkbyp cutReads : Bool} (h : execResetNRelease mode clkbyp cutReads s = .next t) :
    s.store.Keeps t.store := by
  unfold execResetNRelease at h
  split at h <;> cases h <;> exact .refl _

/-- What the load leads to leaves the store that it has resolved. -/
theorem afterLoad_store (s : State) : s.afterLoad.store = s.store := by
  unfold State.afterLoad
  repeat' split
  case h_1 => exact State.settle_store _
  all_goals rfl

theorem execLoadComplete_keepsStore (h : execLoadComplete s = .next t) : s.store.Keeps t.store := by
  unfold execLoadComplete at h
  split at h <;> cases h
  · exact .refl _
  · rw [State.arbitrate_store, State.settleMode_store, afterLoad_store]
    exact keeps_resolve s.store _

theorem execBootstrapReadComplete_keepsStore {image : List Byte} (h : execBootstrapReadComplete image s = .next t) :
    s.store.Keeps t.store := by
  unfold execBootstrapReadComplete at h
  dsimp only at h
  split at h
  · split at h
    · cases h
      exact .refl _
    · split at h
      · cases h
        exact .refl _
      · obtain rfl := Host.Outcome.next.inj h
        exact (burnNext_keepsKeys s.freeFlash _).keepsStore
  · cases h
    exact .refl _

/-- The cell of the provisioning burn is burned, what was left of its time having passed in every timer (R177; log 3). -/
def State.cellBurned (s : State) (cell : StoreCell) (left : Nat) : State := { s.elapse left with store := s.store.burn cell }

/-- The cell in progress is burned, and the next one begins (R177). -/
theorem execProvisionCellBurnComplete_of_burning {want : Store} {cell : StoreCell} {left : Nat} (h : s.prov = .burning want cell left) :
    execProvisionCellBurnComplete s = .next ((s.cellBurned cell left).burnNext want).drive := by
  rw [execProvisionCellBurnComplete, h]
  rfl

theorem execProvisionCellBurnComplete_keepsStore (h : execProvisionCellBurnComplete s = .next t) : s.store.Keeps t.store := by
  cases hprov : s.prov with
  | burning want cell left =>
    rw [execProvisionCellBurnComplete_of_burning hprov] at h
    obtain rfl := Host.Outcome.next.inj h
    have hburned : s.store.Keeps (s.cellBurned cell left).store := keeps_burn s.store cell
    exact hburned.trans (burnNext_keepsKeys (s.cellBurned cell left) want).keepsStore
  | idle | reading =>
    rw [execProvisionCellBurnComplete, hprov] at h
    cases h
    exact .refl _

theorem execFloorCellComplete_keepsStore (h : execFloorCellComplete s = .next t) : s.store.Keeps t.store := by
  unfold execFloorCellComplete at h
  split at h <;> cases h
  · exact keeps_raiseOne (s.elapse _) _
  · exact .refl _

theorem execRevokeCellComplete_keepsStore (h : execRevokeCellComplete s = .next t) : s.store.Keeps t.store := by
  unfold execRevokeCellComplete at h
  split at h <;> cases h
  · exact keeps_burn s.store _
  · exact .refl _

/-! ## Every command -/

theorem exec_keepsStore {c : Instr} (h : exec c s = .next t) : s.store.Keeps t.store := by
  have hrequest {bytes : List Byte} (h : Host.Outcome.next (s.request bytes) = (.next t : Result)) : s.store.Keeps t.store := by
    cases h
    exact .of_eq (request_store s bytes)
  cases c with
  | powerOn =>
    cases h
    exact keeps_cutStore s
  | resetNAssert => exact execResetNAssert_keepsStore h
  | resetNRelease => exact execResetNRelease_keepsStore h
  | loadComplete => exact execLoadComplete_keepsStore h
  | bootstrapReadComplete => exact execBootstrapReadComplete_keepsStore h
  | provisionCellBurnComplete => exact execProvisionCellBurnComplete_keepsStore h
  | upstreamSelectAssert => exact (execUpstreamSelectAssert_keepsKeys h).keepsStore
  | instructionByteComplete => exact (execInstructionByteComplete_keepsKeys h).keepsStore
  | addressComplete => exact (execAddressComplete_keepsKeys h).keepsStore
  | dummyCountComplete => exact (execDummyCountComplete_keepsKeys h).keepsStore
  | upstreamDataByte => exact (execUpstreamDataByte_keepsKeys h).keepsStore
  | upstreamSelectRise => exact execUpstreamSelectRise_keepsStore h
  | report | peek | detail | verify | restart | raiseFloor | revoke => exact hrequest h
  | fetch => exact (execFetch_keepsKeys h).keepsStore
  | unknownRequest => exact execUnknownRequest_keepsStore h
  | burstByteReceived => exact (execBurstByteReceived_keepsKeys h).keepsStore
  | signatureCheckComplete => exact (execSignatureCheckComplete_keepsKeys h).keepsStore
  | deadlineExpiry => exact (execDeadlineExpiry_keepsKeys h).keepsStore
  | holdPulseExpiry => exact (execHoldPulseExpiry_keepsKeys h).keepsStore
  | wakeComplete => exact (execWakeComplete_keepsKeys h).keepsStore
  | wakeWaitEnd => exact (execWakeWaitEnd_keepsKeys h).keepsStore
  | statusPollComplete => exact (execStatusPollComplete_keepsKeys h).keepsStore
  | pollWaitEnd => exact (execPollWaitEnd_keepsKeys h).keepsStore
  | writeDisableComplete => exact (execWriteDisableComplete_keepsKeys h).keepsStore
  | sleepComplete => exact (execSleepComplete_keepsKeys h).keepsStore
  | floorCellComplete => exact execFloorCellComplete_keepsStore h
  | revokeCellComplete => exact execRevokeCellComplete_keepsStore h

end

/-- Settles O13: a microsecond burns nothing, and every command keeps the burned cells. -/
theorem noStepUnburnsACell : Obligations.NoStepUnburnsACell := by
  intro s t h
  unfold step at h
  split at h
  · cases h
    exact .refl _
  · rename_i c rest _
    exact exec_keepsStore (s := { s with pending := rest }) h

end Sys2Proof.Machine
end

section
/-! PROOFS. The step's own rule, and the resets (R126, R137, R152, R174, R175): the state of a power-on and the agreements that hold in it,
POWER_ON, and the two moves of RESET_N. -/

namespace Sys2Proof.Machine

/-! ## The step -/

/-- Settles O1: the branch of the step on a queue that is not empty. -/
theorem aStepRunsTheFrontCommand : Obligations.AStepRunsTheFrontCommand := by
  intro c rest s h
  rw [step, h]

/-! ## The state of a power-on -/

theorem blank_burned (c : StoreCell) : Store.blank.burned c = false := by
  cases c with
  | config i b =>
    have hbyte : (List.replicate 987 (0 : Byte)).getD i 0 = 0 := by
      rw [List.getD_eq_getElem?_getD, List.getElem?_replicate]
      split <;> rfl
    show ((List.replicate 987 (0 : Byte)).getD i 0).getLsbD b = false
    rw [hbyte]
    exact BitVec.getLsbD_zero
  | crc b => exact BitVec.getLsbD_zero
  | active i | revoked i => exact Vector.getElem_replicate i.isLt
  | floor k p =>
    have hrow : (Vector.replicate 8 (0 : BitVec 63))[k] = 0 := Vector.getElem_replicate k.isLt
    show ((Vector.replicate 8 (0 : BitVec 63))[k]).getLsbD p = false
    rw [hrow]
    exact BitVec.getLsbD_zero
  | sealMark => rfl

theorem reset_permit : State.reset.permit = .loading := rfl

theorem reset_tx : State.reset.up.tx = none := rfl

theorem reset_ctx (c : Fin 4) : State.reset.ctx c = none := Vector.getElem_replicate c.isLt

/-- No table is loaded, nothing waits, no context is held and no transaction is under way. -/
theorem reset_permitSound : State.reset.PermitSound := by
  refine ⟨⟨nofun, nofun⟩, ⟨List.nodup_nil, nofun⟩, ⟨fun c z j hz => ?_, fun c c' z z' j hz => ?_⟩, fun x lo n hx => ?_,
    fun hp => ?_⟩
  · cases (reset_ctx c).symm.trans hz
  · cases (reset_ctx c).symm.trans hz
  · cases reset_tx.symm.trans hx
  · cases reset_permit.symm.trans hp

/-- In LOADING no deadline runs, no run is reported and DENIED is no alert cause. -/
theorem reset_runAgrees : State.reset.RunAgrees := ⟨fun h => absurd rfl h, nofun, iff_of_false nofun nofun⟩

theorem reset_windowsAgree : State.reset.WindowsAgree := ⟨.nil, rfl, nofun⟩

/-- Settles O5: record by record as the power-on sets it, and agreement by agreement. -/
theorem resetLeavesTheAfterResetValuesInAgreement : Obligations.ResetLeavesTheAfterResetValuesInAgreement := by
  refine ⟨⟨rfl, rfl, rfl, rfl, rfl, rfl, rfl, rfl, rfl, rfl, rfl, reset_ctx, rfl, rfl, rfl, rfl, rfl, rfl, rfl, rfl, rfl, rfl,
    blank_burned⟩, ?outputs, ?ports, ?fill, ?records, reset_windowsAgree, ?keys, ?work, ?swap, reset_permitSound, ?decision,
    reset_runAgrees, ?arbiter⟩
  case outputs => exact reset_outputsAgree 0
  case ports => exact afterReset_agrees [] Store.blank 0 false false ⟨false, false⟩ .power (.running false) nofun
  case fill => exact fillIsHigh_of_none rfl
  case records => exact nofun
  case keys => exact keysAgree_of_not_running rfl
  case work => exact ⟨.inl rfl, fun _ => rfl⟩
  case swap => exact nofun
  case decision => exact nofun
  case arbiter => exact arbitrate_of_not_running State.reset rfl

/-! ## The resets -/

/-- Settles O6: the reset keeps the queue, the level of upstream select and the store but for the cell it cuts. -/
theorem powerOnSetsEveryBlockAfresh : Obligations.PowerOnSetsEveryBlockAfresh := fun _ _ _ _ => ⟨_, rfl, rfl⟩

/-- Settles O7: by the level at which RESET_N stands. -/
theorem theResetPinSetsEveryBlockAfreshAndBeginsALoad : Obligations.TheResetPinSetsEveryBlockAfreshAndBeginsALoad := by
  refine ⟨fun s => ?_, fun mode clkbyp cut s => ⟨fun hlow => ?_, fun hhigh => ?_⟩⟩
  · cases hlevel : s.resetN with
    | true => exact ⟨s, by rw [exec, execResetNAssert, hlevel]; rfl, fun _ => rfl, nofun⟩
    | false => exact ⟨_, by rw [exec, execResetNAssert, hlevel]; rfl, nofun, fun _ => rfl⟩
  · rw [exec, execResetNRelease, if_pos hlow]
  · rw [exec, execResetNRelease, if_neg (by simp [hhigh])]

end Sys2Proof.Machine
end

section
/-! PROOFS. Provisioning (R176, R177): the image is judged as a whole, and the wanted cells are burned one after another in store order. -/

namespace Sys2Proof.Machine

/-! ## The cell that comes next, and an image that the part takes -/

theorem isNextBurn_of_nextCell {st want : Store} {next : Option StoreCell} (hnext : st.nextCell want = next) :
    st.IsNextBurn want next := by
  unfold Store.nextCell at hnext
  cases next with
  | none =>
    intro c hc hwanted
    simpa [hwanted] using List.find?_eq_none.mp hnext c hc
  | some c =>
    obtain ⟨hc, before, after, hcells, hbefore⟩ := List.find?_eq_some_iff_append.mp hnext
    obtain ⟨hwanted, hunburned⟩ : want.burned c = true ∧ st.burned c = false := by simpa using hc
    refine ⟨hwanted, hunburned, before, after, hcells, fun d hd hd' => ?_⟩
    simpa [hd'] using hbefore d hd

/-- A provisioning burn goes on with the next wanted cell, or ends in PROVISIONED with none left. -/
theorem burnNext_cases (s : State) (want : Store) :
    (∃ c, s.store.IsNextBurn want (some c) ∧ s.burnNext want = { s with prov := .burning want c 500 })
      ∨ (s.store.IsNextBurn want none ∧ s.burnNext want = { s with prov := .idle, permit := .provisioned }) := by
  unfold State.burnNext
  cases hnext : s.store.nextCell want with
  | some c => exact .inl ⟨c, isNextBurn_of_nextCell hnext, rfl⟩
  | none => exact .inr ⟨isNextBurn_of_nextCell hnext, rfl⟩

theorem conflicts_iff (st want : Store) :
    st.conflicts want = true ↔ ∃ c ∈ storeCells, st.burned c = true ∧ want.burned c = false := by
  simp only [Store.conflicts, List.any_eq_true, Bool.and_eq_true, Bool.not_eq_true']

/-- The image fails its CRC or its validation, or wants a burned cell unburned (R177). -/
def State.RejectsImage (s : State) (image : List Byte) : Prop :=
  imageCrcHolds image = false ∨ imageValid image = false
    ∨ ∃ c ∈ storeCells, s.store.burned c = true ∧ (storeOfImage image).burned c = false

/-- An image that passes all three checks is not rejected. -/
theorem not_rejectsImage {s : State} {image : List Byte} (hcrc : imageCrcHolds image = true) (hvalid : imageValid image = true)
    (hkeeps : ∀ c ∈ storeCells, s.store.burned c = true → (storeOfImage image).burned c = true) : ¬ s.RejectsImage image := by
  rintro (hbad | hbad | ⟨c, hc, hburned, hbad⟩)
  · cases hcrc.symm.trans hbad
  · cases hvalid.symm.trans hbad
  · cases (hkeeps c hc hburned).symm.trans hbad

/-! ## The two events -/

section
variable {s : State} {image : List Byte} (hreading : s.prov = .reading) (hlen : image.length = 4096)
include hreading hlen

theorem exec_bootstrapReadComplete_of_rejected (h : s.RejectsImage image) :
    exec (.bootstrapReadComplete image) s = .next s.freeFlash.enterFault.drive := by
  rw [exec, execBootstrapReadComplete, if_pos ⟨hreading, hlen⟩]
  dsimp only
  split
  · rfl
  · rename_i hpasses
    obtain ⟨hcrc, hvalid⟩ : imageCrcHolds image = true ∧ imageValid image = true := by simpa using hpasses
    obtain hbad | hbad | hconflict := h
    · cases hcrc.symm.trans hbad
    · cases hvalid.symm.trans hbad
    · rw [if_pos ((conflicts_iff _ _).mpr hconflict)]

theorem exec_bootstrapReadComplete_of_accepted (h : ¬ s.RejectsImage image) :
    exec (.bootstrapReadComplete image) s = .next (s.freeFlash.burnNext (storeOfImage image)).drive := by
  obtain ⟨hcrc, hvalid, hagrees⟩ : imageCrcHolds image ≠ false ∧ imageValid image ≠ false
      ∧ ¬ s.store.conflicts (storeOfImage image) = true := by
    rw [conflicts_iff]
    simpa only [State.RejectsImage, not_or] using h
  rw [exec, execBootstrapReadComplete, if_pos ⟨hreading, hlen⟩]
  dsimp only
  rw [if_neg (by simp [hcrc, hvalid]), if_neg hagrees]

end

/-- Settles O12: a rejected image and an accepted one, then the two ways a burn goes on. -/
theorem provisioningJudgesTheImageAndBurnsInStoreOrder : Obligations.ProvisioningJudgesTheImageAndBurnsInStoreOrder := by
  refine ⟨fun image s hreading hlen => ?image, fun want cell r s hburning => ?cell⟩
  case image =>
    by_cases hrejects : s.RejectsImage image
    · refine ⟨_, exec_bootstrapReadComplete_of_rejected hreading hlen hrejects, rfl, fun _ => ⟨rfl, rfl, rfl⟩,
        fun hcrc hvalid hkeeps => ?_⟩
      exact absurd hrejects (not_rejectsImage hcrc hvalid hkeeps)
    · rw [exec_bootstrapReadComplete_of_accepted hreading hlen hrejects]
      obtain ⟨c, hnext, he⟩ | ⟨hnext, he⟩ := burnNext_cases s.freeFlash (storeOfImage image) <;> rw [he]
      · exact ⟨_, rfl, rfl, fun h => absurd h hrejects, fun _ _ _ => ⟨rfl, rfl, .inl ⟨c, hnext, rfl, rfl⟩⟩⟩
      · exact ⟨_, rfl, rfl, fun h => absurd h hrejects, fun _ _ _ => ⟨rfl, rfl, .inr ⟨hnext, rfl, rfl⟩⟩⟩
  case cell =>
    have hexec : exec .provisionCellBurnComplete s = .next ((s.cellBurned cell r).burnNext want).drive :=
      execProvisionCellBurnComplete_of_burning hburning
    rw [hexec]
    obtain ⟨c, hnext, he⟩ | ⟨hnext, he⟩ := burnNext_cases (s.cellBurned cell r) want <;> rw [he]
    · exact ⟨_, rfl, rfl, .inl ⟨c, hnext, rfl, rfl⟩⟩
    · exact ⟨_, rfl, rfl, .inr ⟨hnext, rfl, rfl⟩⟩

end Sys2Proof.Machine
end

section
/-! PROOFS. The load's completion (R35, R36, R142, R151, R152, R157, R160, R173, R175, R177): the cut cell is resolved, and the store, the
validation and MODE decide among the five ends; the start-up pulse ends with the load or goes on for the configured hold pulse. -/

namespace Sys2Proof.Machine

/-! ## The ends of a load -/

/-- The state in which the load decides: no load runs, and the cut cell is resolved. -/
def State.resolved (s : State) (reads : Bool) : State := { s with load := .none, store := s.store.resolve reads }

/-- The state that the completion of the load answers. -/
def State.loadDone (s : State) (reads : Bool) : State := (s.resolved reads).afterLoad.settleMode.arbitrate

theorem exec_loadComplete_of_running {s : State} {reads : Bool} (h : s.load = .running reads) :
    exec .loadComplete s = .next (s.loadDone reads) := by
  rw [exec, execLoadComplete, h]
  rfl

theorem resolve_eq (st : Store) (reads : Bool) :
    st.resolve reads
      = { (match st.cut with
            | some c => if reads = true then st.burn c else st
            | none => st) with cut := none } := by
  obtain ⟨config, crc, active, revoked, floors, sealMark, cut⟩ := st
  cases cut <;> rfl

section
variable {s : State}

theorem afterLoad_of_valid {c : LoadedConfig} (hsealed : s.store.sealed = true) (hload : s.store.loadable = some c) :
    s.afterLoad = (s.handOver c).runStart s.resetCause := by
  rw [State.afterLoad, if_pos hsealed, hload]

theorem afterLoad_of_invalid (hsealed : s.store.sealed = true) (hload : s.store.loadable = none) : s.afterLoad = s.enterFault.drive := by
  rw [State.afterLoad, if_pos hsealed, hload]

theorem afterLoad_of_provision (hsealed : s.store.sealed = false) (hmode : s.straps.provision = true) :
    s.afterLoad = s.enterProvisioning.drive := by
  rw [State.afterLoad, if_neg (by simp [hsealed]), if_pos hmode]

theorem afterLoad_of_blank (hsealed : s.store.sealed = false) (hmode : s.straps.provision = false) (hblank : s.store.isBlank = true) :
    s.afterLoad = ({ s with permit := .unprovisioned, pulse := .stopped } : State).drive := by
  rw [State.afterLoad, if_neg (by simp [hsealed]), if_neg (by simp [hmode]), if_pos hblank]

theorem afterLoad_of_partial (hsealed : s.store.sealed = false) (hmode : s.straps.provision = false) (hblank : s.store.isBlank = false) :
    s.afterLoad = s.enterFault.drive := by
  rw [State.afterLoad, if_neg (by simp [hsealed]), if_neg (by simp [hmode]), if_neg (by simp [hblank])]

/-- Every end but the run start drives the outputs in a state whose start-up pulse is stopped. -/
theorem afterLoad_of_not_valid (h : s.store.sealed = false ∨ s.store.loadable = none) :
    ∃ u : State, s.afterLoad = u.drive ∧ u.pins = s.pins ∧ (s.pulse = .startup → u.pulse = .stopped) := by
  have hfault : s.enterFault.pins = s.pins ∧ (s.pulse = .startup → s.enterFault.pulse = .stopped) := ⟨rfl, fun hp => if_pos hp⟩
  cases hsealed : s.store.sealed with
  | true => exact ⟨_, afterLoad_of_invalid hsealed (h.resolve_left (by simp [hsealed])), hfault⟩
  | false =>
    cases hmode : s.straps.provision with
    | true => exact ⟨_, afterLoad_of_provision hsealed hmode, rfl, fun _ => rfl⟩
    | false =>
      cases hblank : s.store.isBlank with
      | true => exact ⟨_, afterLoad_of_blank hsealed hmode hblank, rfl, fun _ => rfl⟩
      | false => exact ⟨_, afterLoad_of_partial hsealed hmode hblank, hfault⟩

end

/-! ## What the end of a load leaves to the mode and the arbiter -/

section
variable (s : State) (reads : Bool)

/-- The mode and the arbiter write the two ports alone. -/
theorem loadDone_eq : s.loadDone reads
    = { (s.resolved reads).afterLoad with up := (s.loadDone reads).up, fp := (s.loadDone reads).fp } := by
  have hports (u : State) : u.settleMode.arbitrate = { u with up := u.settleMode.arbitrate.up, fp := u.settleMode.arbitrate.fp } := by
    rw [arbitrate_eq, settleMode_eq]
  exact hports _

theorem loadDone_store : (s.loadDone reads).store = s.store.resolve reads := by
  rw [loadDone_eq]
  exact afterLoad_store _

theorem loadDone_permit : (s.loadDone reads).permit = (s.resolved reads).afterLoad.permit := by rw [loadDone_eq]

theorem loadDone_pulse : (s.loadDone reads).pulse = (s.resolved reads).afterLoad.pulse := by rw [loadDone_eq]

theorem afterLoad_load (s : State) : s.afterLoad.load = s.load := by
  unfold State.afterLoad
  repeat' split
  case h_1 => exact State.settle_load _
  all_goals rfl

theorem loadDone_load : (s.loadDone reads).load = .none := by
  rw [loadDone_eq]
  exact afterLoad_load _

/-- The mode follows the permit state unless a transaction is under way (R94). -/
theorem loadDone_up : (s.loadDone reads).up
    = { s.up with mode := if s.up.select = true then s.up.mode else (s.loadDone reads).permit.mode } := by
  rw [loadDone_permit, State.loadDone, State.arbitrate_up, settleMode_eq, afterLoad_up]
  rfl

/-- In a permit state in which the part does not run, the arbiter issues nothing. -/
theorem loadDone_fp (h : (s.resolved reads).afterLoad.permit.running = false) :
    (s.loadDone reads).fp = (s.resolved reads).afterLoad.fp := by
  rw [State.loadDone, arbitrate_of_not_running _ (by rw [State.settleMode_permit]; exact h), State.settleMode_fp]

end

/-! ## The run of the loaded values -/

/-- The report of a run just started is that of its number and cause, its tally empty (R36, R160). -/
theorem runStart_report (s : State) (cause : StartCause) : ∃ rep, (s.runStart cause).report = some rep
    ∧ rep.runNumber = (s.runStart cause).runNumber ∧ rep.cause = cause ∧ rep.tally = ⟨0, 0, 0, 0⟩ :=
  ⟨_, (runStart_run s cause).1, rfl, rfl, rfl⟩

theorem runStart_cfg (s : State) (cause : StartCause) : (s.runStart cause).cfg = s.cfg := State.settle_cfg _

theorem runStart_synth (s : State) (cause : StartCause) : (s.runStart cause).synth = s.synth := State.settle_synth _

theorem runStart_running (s : State) (cause : StartCause) : (s.runStart cause).permit.running = true := by
  obtain h | h := runStart_permit s cause <;> rw [h] <;> rfl

theorem runStart_permit_mode (s : State) (cause : StartCause) : (s.runStart cause).permit.mode = .relaying := by
  obtain h | h := runStart_permit s cause <;> rw [h] <;> rfl

section
variable {s : State} {reads : Bool} {c : LoadedConfig}

section
variable (hsealed : (s.store.resolve reads).sealed = true) (hload : (s.store.resolve reads).loadable = some c)
include hsealed hload

theorem afterLoad_resolved : (s.resolved reads).afterLoad = ((s.resolved reads).handOver c).runStart s.resetCause :=
  afterLoad_of_valid hsealed hload

theorem loadDone_of_valid : s.loadDone reads
    = ({ ((s.resolved reads).handOver c).runStart s.resetCause with
          up := { s.up with mode := if s.up.select = true then s.up.mode else .relaying } } : State).arbitrate := by
  have hup : (((s.resolved reads).handOver c).runStart s.resetCause).up = s.up := State.settle_up _
  rw [State.loadDone, afterLoad_resolved hsealed hload, settleMode_eq, hup, runStart_permit_mode]

/-- What the blocks have received stands through the run start (R175). -/
theorem loadDone_received : (s.loadDone reads).cfg = c.cfg ∧ (s.loadDone reads).regions = c.regions
    ∧ (s.loadDone reads).synth = synthOf s.straps.bypass c ∧ (s.loadDone reads).keys = keysOf (s.store.resolve reads) c := by
  rw [loadDone_eq, afterLoad_resolved hsealed hload]
  dsimp only
  exact ⟨runStart_cfg _ _, runStart_regions _ _, runStart_synth _ _, (runStart_keys _ _).2⟩

theorem loadDone_run : (s.loadDone reads).permit.running = true
    ∧ (s.loadDone reads).runNumber = nextRun s.runNumber
    ∧ ∃ rep, (s.loadDone reads).report = some rep ∧ rep.runNumber = (s.loadDone reads).runNumber ∧ rep.cause = s.resetCause
        ∧ rep.tally = ⟨0, 0, 0, 0⟩ := by
  rw [loadDone_eq, afterLoad_resolved hsealed hload]
  dsimp only
  exact ⟨runStart_running _ _, runStart_runNumber _ _, runStart_report _ _⟩

/-- The line is asserted throughout, so that no other pulse starts (R157). -/
theorem loadDone_pulse_of_valid (hline : s.pins.ctrlHold = true) : (s.loadDone reads).pulse = s.startPulse c.cfg.holdPulse := by
  rw [loadDone_pulse, afterLoad_resolved hsealed hload]
  exact runStart_calm ((s.resolved reads).handOver c) s.resetCause (.inr hline)

end

theorem loadDone_pulse_of_not_valid (hline : s.pins.ctrlHold = true) (hpulse : s.pulse = .startup)
    (h : (s.store.resolve reads).sealed = false ∨ (s.store.resolve reads).loadable = none) : (s.loadDone reads).pulse = .stopped := by
  obtain ⟨u, hu, hpins, hstopped⟩ := afterLoad_of_not_valid (s := s.resolved reads) h
  have hline : u.pins.ctrlHold = true := hpins ▸ hline
  rw [loadDone_pulse, hu, drive_pulse_of_asserted u hline]
  exact hstopped hpulse

end

/-- Settles O9: by the five ends of the load, and the pulse of a line that is asserted throughout. -/
theorem loadCompleteFollowsTheStore : Obligations.LoadCompleteFollowsTheStore := by
  refine ⟨fun reads s hload => ⟨_, exec_loadComplete_of_running hload, ?_⟩,
    fun reads s hload hline hpulse => ⟨_, exec_loadComplete_of_running hload, ?_⟩⟩ <;> rw [loadDone_store]
  · refine ⟨loadDone_load s reads, resolve_eq s.store reads, loadDone_up s reads, fun hsealed hinvalid => ?invalid,
      fun hsealed hmode => ?provision, fun hsealed hmode hblank => ?blank, fun hsealed hmode hpartial => ?part,
      fun c hsealed hvalid => ?values, fun c hsealed hvalid => loadDone_of_valid hsealed hvalid⟩
    case invalid =>
      rw [loadDone_eq, afterLoad_of_invalid (s := s.resolved reads) hsealed hinvalid]
      exact ⟨rfl, rfl, rfl, rfl⟩
    case provision =>
      have hafter := afterLoad_of_provision (s := s.resolved reads) hsealed hmode
      rw [loadDone_fp s reads (by rw [hafter]; rfl), loadDone_eq, hafter]
      exact ⟨rfl, rfl, rfl, rfl, rfl⟩
    case blank =>
      rw [loadDone_eq, afterLoad_of_blank (s := s.resolved reads) hsealed hmode hblank]
      exact ⟨rfl, rfl, rfl⟩
    case part =>
      rw [loadDone_eq, afterLoad_of_partial (s := s.resolved reads) hsealed hmode hpartial]
      exact ⟨rfl, rfl⟩
    case values =>
      obtain ⟨hcfg, hregions, hsynth, hkeys⟩ := loadDone_received hsealed hvalid
      obtain ⟨hrunning, hnumber, hreport⟩ := loadDone_run hsealed hvalid
      refine ⟨hrunning, hcfg, hregions, hsynth, fun k => ?_, fun i => ?_, ?_, hnumber, hreport⟩ <;> rw [hkeys]
      · exact Vector.getElem_map rowFloor k.isLt
      · exact Vector.getElem_ofFn i.isLt
      · rfl
  · exact ⟨loadDone_pulse_of_not_valid hline hpulse, fun c hsealed hvalid => loadDone_pulse_of_valid hsealed hvalid hline⟩

end Sys2Proof.Machine
end

section
/-! PROOFS. No command ends a run or touches the queue (log 1): each operation of an event leaves the queue as it is, and every arm of every
command answers a next state. -/

namespace Sys2Proof.Machine

/-! ## The verifier and the requests -/

theorem pending_of_sansVerifier {s t : State} (h : t.sansVerifier = s.sansVerifier) : t.pending = s.pending :=
  have hsans : t.sansVerifier.pending = s.sansVerifier.pending := congrArg State.pending h
  hsans

section
variable (s : State)

@[simp] theorem State.expire_pending : s.expire.pending = s.pending := by rw [expire_changesVerifier s]

@[simp] theorem State.absorb_pending (c : Fin 4) (i : Nat) (b : Byte) (seen : Bool) : (s.absorb c i b seen).pending = s.pending :=
  pending_of_sansVerifier (absorb_sansVerifier s c i b seen)

@[simp] theorem State.staleRange_pending (range : Nat × Nat) : (s.staleRange range).pending = s.pending :=
  pending_of_sansVerifier (staleRange_sansVerifier s range)

@[simp] theorem State.applyResult_pending (e : SigEntry) (passed : Bool) : (s.applyResult e passed).pending = s.pending :=
  pending_of_sansVerifier (applyResult_sansVerifier s e passed)

@[simp] theorem State.runStart_pending (cause : StartCause) : (s.runStart cause).pending = s.pending := State.settle_pending _

@[simp] theorem State.takeRequest_pending (q : Request) : (s.takeRequest q).pending = s.pending := by
  cases q with
  | report | peek | unknown => rfl
  | restart =>
    change s.takeRestart.pending = _
    unfold State.takeRestart
    split <;> simp
  | detail index =>
    change (s.takeDetail index).pending = _
    unfold State.takeDetail
    split <;> rfl
  | verify index =>
    change (s.takeVerify index).pending = _
    unfold State.takeVerify
    dsimp only
    split <;> simp
  | raiseFloor kind =>
    change (s.takeRaise kind).pending = _
    unfold State.takeRaise
    dsimp only
    split <;> rfl
  | revoke slot =>
    change (s.takeRevoke slot).pending = _
    unfold State.takeRevoke
    dsimp only
    split <;> rfl

@[simp] theorem State.takeBytes_pending (bytes : List Byte) : (s.takeBytes bytes).pending = s.pending := by
  unfold State.takeBytes
  split
  · exact takeRequest_pending s _
  · rfl

/-! ## The upstream port -/

@[simp] theorem State.wire_pending (bs : List Byte) : (s.wire bs).pending = s.pending := by
  obtain ⟨-, -, he⟩ | ⟨-, he⟩ := wire_cases s bs <;> rw [he]
  rfl

@[simp] theorem State.refuse_pending (x : Tx) (cls : TxClass) (a : Option Nat) (cause : RefusalCause) :
    (s.refuse x cls a cause).pending = s.pending := by rw [refuse_eq]

@[simp] theorem State.forward_pending (x : Tx) (e : ClassEntry) (bs : List Byte) : (s.forward x e bs).pending = s.pending := rfl

theorem classify_pending (x : Tx) (b : Byte) (e : ClassEntry) : (s.classify x b e).pending = s.pending := by
  unfold State.classify
  split
  case h_3 | h_5 => split <;> simp [State.truncate]
  case h_4 => dsimp only; split <;> simp
  all_goals rfl

theorem address_pending (x : Tx) (e : ClassEntry) (a : BitVec 32) : (s.address x e a).pending = s.pending := by
  unfold State.address
  split
  case h_1 =>
    unfold State.addressRead
    dsimp only
    split <;> rfl
  case h_2 | h_3 | h_4 =>
    unfold State.addressWrite
    dsimp only
    split <;> simp
  all_goals rfl

theorem serviceByte_pending (x : Tx) (e : ClassEntry) (b : Byte) : (s.serviceByte x e b).pending = s.pending := by
  unfold State.serviceByte
  dsimp only
  repeat' split
  all_goals rfl

theorem offer_pending (a : Nat) (b : Byte) : (s.offer a b).pending = s.pending := by
  unfold State.offer
  split
  · split <;> simp
  · rfl

theorem dataByte_pending (x : Tx) (e : ClassEntry) (b : Byte) : (s.dataByte x e b).pending = s.pending := by
  unfold State.dataByte
  dsimp only
  split
  case h_1 => exact serviceByte_pending s x e b
  case h_5 =>
    unfold State.readByte
    dsimp only
    split
    · exact offer_pending _ _ b
    · rfl
  case h_6 =>
    unfold State.snoop
    repeat' split
    all_goals rfl
  all_goals rfl

theorem judgeRise_pending (x : Tx) : (s.judgeRise x).pending = s.pending := by
  have hwrite : (s.acceptWrite x).pending = s.pending := by
    unfold State.acceptWrite
    dsimp only
    repeat' split
    all_goals simp
  unfold State.judgeRise
  split
  · rfl
  · split
    · unfold State.accept
      split
      case h_1 | h_2 | h_3 | h_4 | h_5 => exact hwrite
      all_goals rfl
    · split <;> rfl

@[simp] theorem State.rise_pending (x : Tx) : (s.rise x).pending = s.pending := by
  have hended : ((s.judgeRise x).handCauses x).endTx.pending = s.pending := by
    rw [State.endTx, State.settleMode_pending, handCauses_eq]
    exact judgeRise_pending s x
  unfold State.rise State.handRequest
  rw [State.arbitrate_pending]
  split
  · exact (takeBytes_pending _ _).trans hended
  · exact hended

@[simp] theorem State.request_pending (bytes : List Byte) : (s.request bytes).pending = s.pending := by
  unfold State.request
  split
  · split
    · simp [State.afterService]
    · rfl
  · split <;> simp

/-! ## The load and the provisioning -/

@[simp] theorem State.afterLoad_pending : s.afterLoad.pending = s.pending := by
  unfold State.afterLoad
  repeat' split
  case h_1 => exact runStart_pending _ _
  all_goals rfl

@[simp] theorem State.burnNext_pending (want : Store) : (s.burnNext want).pending = s.pending := by
  unfold State.burnNext
  split <;> rfl

end

/-! ## The commands -/

/-- The outcome is a next state, with the queue of `s`. -/
def LeavesQueue (s : State) (r : Result) : Prop := ∃ t, r = .next t ∧ t.pending = s.pending

section
variable (s : State)

theorem LeavesQueue.next {t : State} (h : t.pending = s.pending) : LeavesQueue s (.next t) := ⟨t, rfl, h⟩

theorem LeavesQueue.same : LeavesQueue s (.next s) := .next s rfl

/-! ### Resets, load and provisioning -/

theorem execPowerOn_leavesQueue (mode clkbyp cutReads : Bool) : LeavesQueue s (execPowerOn mode clkbyp cutReads s) := .next s rfl

theorem execResetNAssert_leavesQueue : LeavesQueue s (execResetNAssert s) := by
  unfold execResetNAssert
  split <;> exact .next s rfl

theorem execResetNRelease_leavesQueue (mode clkbyp cutReads : Bool) : LeavesQueue s (execResetNRelease mode clkbyp cutReads s) := by
  unfold execResetNRelease
  split <;> exact .next s rfl

theorem execLoadComplete_leavesQueue : LeavesQueue s (execLoadComplete s) := by
  unfold execLoadComplete
  split
  · exact .same s
  · exact .next s (by simp)

theorem execBootstrapReadComplete_leavesQueue (image : List Byte) : LeavesQueue s (execBootstrapReadComplete image s) := by
  unfold execBootstrapReadComplete
  dsimp only
  split
  · split
    · exact .next s rfl
    · split
      · exact .next s rfl
      · exact .next s (by simp)
  · exact .same s

theorem execProvisionCellBurnComplete_leavesQueue : LeavesQueue s (execProvisionCellBurnComplete s) := by
  cases hprov : s.prov with
  | burning want cell left =>
    rw [execProvisionCellBurnComplete_of_burning hprov]
    exact .next s (by simp [State.cellBurned])
  | idle | reading =>
    rw [execProvisionCellBurnComplete, hprov]
    exact .same s

/-! ### The upstream port -/

theorem execUpstreamSelectAssert_leavesQueue : LeavesQueue s (execUpstreamSelectAssert s) := by
  unfold execUpstreamSelectAssert
  dsimp only
  split
  · exact .same s
  · split <;> exact .next s rfl

theorem execInstructionByteComplete_leavesQueue (b : Byte) : LeavesQueue s (execInstructionByteComplete b s) := by
  unfold execInstructionByteComplete
  split
  · split
    · exact .next s (classify_pending s _ b _)
    · exact .same s
  · exact .next s (by simp)

theorem execAddressComplete_leavesQueue (a : BitVec 32) : LeavesQueue s (execAddressComplete a s) := by
  unfold execAddressComplete
  split
  · split
    · exact .next s (address_pending s _ _ a)
    · exact .same s
  · exact .next s (by simp)

theorem execDummyCountComplete_leavesQueue : LeavesQueue s (execDummyCountComplete s) := by
  unfold execDummyCountComplete
  split
  · split <;> exact .next s rfl
  · exact .same s

theorem execUpstreamDataByte_leavesQueue (b : Byte) : LeavesQueue s (execUpstreamDataByte b s) := by
  unfold execUpstreamDataByte
  split
  · exact .next s (by split <;> rfl)
  · exact .next s (by split <;> simp)
  · split
    · split
      · exact .next s (dataByte_pending s _ _ b)
      · exact .same s
    · exact .same s

theorem execUpstreamSelectRise_leavesQueue (clocks : Fin 8) : LeavesQueue s (execUpstreamSelectRise clocks s) := by
  unfold execUpstreamSelectRise
  split
  · split <;> exact .next s (by simp)
  · exact .same s

/-! ### Requests -/

theorem request_leavesQueue (bytes : List Byte) : LeavesQueue s (.next (s.request bytes)) := .next s (State.request_pending s bytes)

theorem execFetch_leavesQueue : LeavesQueue s (execFetch s) := by
  unfold execFetch
  split <;> split <;> exact .next s rfl

theorem execUnknownRequest_leavesQueue (code : Byte) : LeavesQueue s (execUnknownRequest code s) := by
  unfold execUnknownRequest
  split
  · exact .same s
  · exact request_leavesQueue s _

/-! ### Completions and expiries -/

theorem execBurstByteReceived_leavesQueue (b : Byte) : LeavesQueue s (execBurstByteReceived b s) := by
  unfold execBurstByteReceived
  split
  · rename_i c left _
    have hbyte : ((s.takeByte c b).countBurst c left).pending = s.pending := pending_of_sansVerifier (by simp)
    refine .next s ?_
    rw [State.arbitrate_pending]
    split
    · rw [State.settle_pending, hbyte]
    · exact hbyte
  · exact .same s

theorem execSignatureCheckComplete_leavesQueue : LeavesQueue s (execSignatureCheckComplete s) := by
  unfold execSignatureCheckComplete
  split
  · refine .next s ?_
    rw [State.arbitrate_pending, State.settle_pending]
    split <;> simp
  · exact .same s

theorem execDeadlineExpiry_leavesQueue : LeavesQueue s (execDeadlineExpiry s) := by
  unfold execDeadlineExpiry
  split
  · exact .next s (by simp)
  · exact .same s

theorem execHoldPulseExpiry_leavesQueue : LeavesQueue s (execHoldPulseExpiry s) := by
  unfold execHoldPulseExpiry
  split <;> exact .next s rfl

theorem execWakeComplete_leavesQueue : LeavesQueue s (execWakeComplete s) := by
  unfold execWakeComplete
  split
  · exact .next s (by simp)
  · exact .same s

theorem execWakeWaitEnd_leavesQueue : LeavesQueue s (execWakeWaitEnd s) := by
  unfold execWakeWaitEnd
  split
  · exact .next s (by simp)
  · exact .same s

theorem execStatusPollComplete_leavesQueue (status : Byte) : LeavesQueue s (execStatusPollComplete status s) := by
  unfold execStatusPollComplete
  split
  · refine .next s ?_
    rw [State.arbitrate_pending]
    split <;> rfl
  · exact .same s

theorem execPollWaitEnd_leavesQueue : LeavesQueue s (execPollWaitEnd s) := by
  unfold execPollWaitEnd
  split
  · exact .next s (by simp)
  · exact .same s

theorem execWriteDisableComplete_leavesQueue : LeavesQueue s (execWriteDisableComplete s) := by
  unfold execWriteDisableComplete
  split
  · exact .next s (by simp)
  · exact .same s

theorem execSleepComplete_leavesQueue : LeavesQueue s (execSleepComplete s) := by
  unfold execSleepComplete
  split
  · exact .next s (by simp)
  · exact .same s

theorem execFloorCellComplete_leavesQueue : LeavesQueue s (execFloorCellComplete s) := by
  unfold execFloorCellComplete
  split <;> exact .next s rfl

theorem execRevokeCellComplete_leavesQueue : LeavesQueue s (execRevokeCellComplete s) := by
  unfold execRevokeCellComplete
  split <;> exact .next s rfl

end

/-- Settles O3: command by command, each arm of its meaning answers a next state with the queue it was given. -/
theorem noCommandEndsARunOrTouchesTheQueue : Obligations.NoCommandEndsARunOrTouchesTheQueue := by
  intro c s
  change LeavesQueue s (exec c s)
  cases c with
  | powerOn => exact execPowerOn_leavesQueue s _ _ _
  | resetNAssert => exact execResetNAssert_leavesQueue s
  | resetNRelease => exact execResetNRelease_leavesQueue s _ _ _
  | loadComplete => exact execLoadComplete_leavesQueue s
  | bootstrapReadComplete => exact execBootstrapReadComplete_leavesQueue s _
  | provisionCellBurnComplete => exact execProvisionCellBurnComplete_leavesQueue s
  | upstreamSelectAssert => exact execUpstreamSelectAssert_leavesQueue s
  | instructionByteComplete => exact execInstructionByteComplete_leavesQueue s _
  | addressComplete => exact execAddressComplete_leavesQueue s _
  | dummyCountComplete => exact execDummyCountComplete_leavesQueue s
  | upstreamDataByte => exact execUpstreamDataByte_leavesQueue s _
  | upstreamSelectRise => exact execUpstreamSelectRise_leavesQueue s _
  | report | peek | detail | verify | restart | raiseFloor | revoke => exact request_leavesQueue s _
  | fetch => exact execFetch_leavesQueue s
  | unknownRequest => exact execUnknownRequest_leavesQueue s _
  | burstByteReceived => exact execBurstByteReceived_leavesQueue s _
  | signatureCheckComplete => exact execSignatureCheckComplete_leavesQueue s
  | deadlineExpiry => exact execDeadlineExpiry_leavesQueue s
  | holdPulseExpiry => exact execHoldPulseExpiry_leavesQueue s
  | wakeComplete => exact execWakeComplete_leavesQueue s
  | wakeWaitEnd => exact execWakeWaitEnd_leavesQueue s
  | statusPollComplete => exact execStatusPollComplete_leavesQueue s _
  | pollWaitEnd => exact execPollWaitEnd_leavesQueue s
  | writeDisableComplete => exact execWriteDisableComplete_leavesQueue s
  | sleepComplete => exact execSleepComplete_leavesQueue s
  | floorCellComplete => exact execFloorCellComplete_leavesQueue s
  | revokeCellComplete => exact execRevokeCellComplete_leavesQueue s

end Sys2Proof.Machine
end
